-- ==== Sys2Proof/Syntax.lean ====
section
/-! DEFINITION. The ten command words of rule R73 as one inductive, with their operands (rule R72), and the agents of
rule R51. -/

namespace Sys2Proof

/-- The level of an external line: the operand `LV` of rule R72 and the contents of `LAST[i]` (rule R35). -/
inductive LineLevel where
  /-- Low, code 0. -/
  | low
  /-- High, code 1. -/
  | high
deriving DecidableEq, Repr

/-- The four trigger kinds of a line, in the order of their codes 0 to 3 (rules R33, R72, R130). -/
inductive TriggerKind where
  /-- Code 0, `LOW`: requests while the sampled level is Low. -/
  | lowLevel
  /-- Code 1, `ANY`: every change of level is an edge. -/
  | anyEdge
  /-- Code 2, `FALL`: High to Low is the edge. -/
  | fallingEdge
  /-- Code 3, `RISE`: Low to High is the edge. -/
  | risingEdge
deriving DecidableEq, Repr

/-- The command words (rule R73). A line number `ln` is kept as the number it is: 0, 1 and 2 name lines, any other
names no line and the command changes nothing (rule R76). A read address `ad` is the number of rule R191's map. -/
inductive Instr where
  /-- `TICK` (rule R90): the timer's tick event. -/
  | tick
  /-- `LINE ln, lv` (rule R132): a sample of line `ln` at level `lv`. -/
  | line (ln : Nat) (lv : LineLevel)
  /-- `ECFG ln, kind` (rule R133): set a line's trigger kind. -/
  | ecfg (ln : Nat) (kd : TriggerKind)
  /-- `EEN ln` (rule R134): arm a line. -/
  | een (ln : Nat)
  /-- `EDIS ln` (rule R135): disarm a line. -/
  | edis (ln : Nat)
  /-- `IRQOFF` (rule R152): clear the global interrupt enable. -/
  | irqoff
  /-- `IRQON` (rule R153): set the global interrupt enable. -/
  | irqon
  /-- `DISP` (rule R150): service one request. -/
  | disp
  /-- `SCAN` (rule R170): visit one digit position. -/
  | scan
  /-- `RD ad` (rule R190): read one word of the read space into `RDATA`. -/
  | rd (ad : Nat)
deriving DecidableEq, Repr

/-- The agents that issue command words (rule R51). -/
inductive Agent where
  /-- The timer, which issues `TICK`. -/
  | timer
  /-- The line environment, which issues `LINE`. -/
  | lineEnvironment
  /-- The interrupt unit, which issues `DISP`: only it runs a handler. -/
  | interruptUnit
  /-- The scanner, which issues `SCAN`. -/
  | scanner
  /-- The host, which issues the configuration words and `RD`. -/
  | host
deriving DecidableEq, Repr

end Sys2Proof
end

