-- ==== Sys2Proof/WellFormed.lean ====
section
/-! DEFINITION. Which terms of `Instr` are command words: each operand fits its field (rules R71 and R72).
`LN = 3` is well formed: it names no line and is still a valid encoding (rule R76). -/

namespace Sys2Proof

/-- The line number fits the two bits of `LN = w[1:0]` (rule R72). -/
def lineNumberFits (ln : Nat) : Bool := decide (ln < 4)

/-- The read address fits the four bits of `AD = w[3:0]` (rule R72). -/
def readAddressFits (ad : Nat) : Bool := decide (ad < 16)

/-- Every operand of the command fits its field. -/
def Instr.wf : Instr → Bool
  | .tick => true
  | .line ln _ => lineNumberFits ln
  | .ecfg ln _ => lineNumberFits ln
  | .een ln => lineNumberFits ln
  | .edis ln => lineNumberFits ln
  | .irqoff => true
  | .irqon => true
  | .disp => true
  | .scan => true
  | .rd ad => readAddressFits ad

end Sys2Proof
end

