-- ==== Sys2Proof/Word.lean ====
section
/-! DEFINITION. The word types of the block's two ports (rules R2 and R59). -/

namespace Sys2Proof

/-- A command word: 16 bits, bit 0 the least significant (rules R8, R70). -/
abbrev Word := BitVec 16

/-- A word of the read space: 32 bits (rules R40, R59). -/
abbrev ReadWord := BitVec 32

end Sys2Proof
end

