-- ==== Sys2Proof/Decode.lean ====
section
/-! DEFINITION. The decoder of rule R79, total over every 16-bit word and refusing by name, the encoder of the same
formats (rule R71), and the opcode map of rule R73 as a list of rows. -/

namespace Sys2Proof

/-- Why a word is no command: rules R74 and R75. -/
inductive DecodeError where
  /-- The opcode is one of 0x0 and 0xB to 0xF (rule R74). -/
  | reservedOpcode (op : Nat)
  /-- The opcode is assigned and a must-be-zero bit of its format is 1 (rule R75). -/
  | mustBeZero (op : Nat)
deriving DecidableEq, Repr

/-- `w[lo+len-1:lo]` as an unsigned number (rule R8). -/
def fieldOf (w : Word) (lo len : Nat) : Nat := (w.extractLsb' lo len).toNat

/-- `OP = w[15:12]` (rule R70). -/
def opField (w : Word) : Nat := fieldOf w 12 4

/-- The level a one-bit code names: 1 = High, 0 = Low (rule R72). -/
def levelOfCode : Nat → LineLevel
  | 0 => .low
  | _ => .high

/-- The code of a level. -/
def levelCode : LineLevel → Nat
  | .low => 0
  | .high => 1

/-- The trigger kind a two-bit code names (rule R72). -/
def kindOfCode : Nat → TriggerKind
  | 0 => .lowLevel
  | 1 => .anyEdge
  | 2 => .fallingEdge
  | _ => .risingEdge

/-- The code of a trigger kind. -/
def kindCode : TriggerKind → Nat
  | .lowLevel => 0
  | .anyEdge => 1
  | .fallingEdge => 2
  | .risingEdge => 3

/-- `LN = w[1:0]` (rule R72). -/
def lnField (w : Word) : Nat := fieldOf w 0 2

/-- `LV = w[4]` (rule R72). -/
def lvField (w : Word) : LineLevel := levelOfCode (fieldOf w 4 1)

/-- `KD = w[9:8]` (rule R72). -/
def kdField (w : Word) : TriggerKind := kindOfCode (fieldOf w 8 2)

/-- `AD = w[3:0]` (rule R72). -/
def adField (w : Word) : Nat := fieldOf w 0 4

/-- The decoding pseudocode of rule R79, its refusals named (rules R74, R75). -/
def decode (w : Word) : Except DecodeError Instr :=
  match opField w with
  | 0x1 => if w = 0x1000#16 then .ok .tick else .error (.mustBeZero 0x1)
  | 0x2 => if w &&& 0xFFEC#16 = 0x2000#16 then .ok (.line (lnField w) (lvField w)) else .error (.mustBeZero 0x2)
  | 0x3 => if w &&& 0xFCFC#16 = 0x3000#16 then .ok (.ecfg (lnField w) (kdField w)) else .error (.mustBeZero 0x3)
  | 0x4 => if w &&& 0xFFFC#16 = 0x4000#16 then .ok (.een (lnField w)) else .error (.mustBeZero 0x4)
  | 0x5 => if w &&& 0xFFFC#16 = 0x5000#16 then .ok (.edis (lnField w)) else .error (.mustBeZero 0x5)
  | 0x6 => if w = 0x6000#16 then .ok .irqoff else .error (.mustBeZero 0x6)
  | 0x7 => if w = 0x7000#16 then .ok .irqon else .error (.mustBeZero 0x7)
  | 0x8 => if w = 0x8000#16 then .ok .disp else .error (.mustBeZero 0x8)
  | 0x9 => if w = 0x9000#16 then .ok .scan else .error (.mustBeZero 0x9)
  | 0xA => if w &&& 0xFFF0#16 = 0xA000#16 then .ok (.rd (adField w)) else .error (.mustBeZero 0xA)
  | op => .error (.reservedOpcode op)

/-- The field value `v` placed with its bit 0 at bit `lo` of a command word. -/
def placeField (lo v : Nat) : Word := BitVec.ofNat 16 v <<< lo

/-- The word of a command: its opcode and operand fields, every other bit 0 (rules R71, R72). -/
def encode : Instr → Word
  | .tick => placeField 12 0x1
  | .line ln lv => placeField 12 0x2 ||| placeField 4 (levelCode lv) ||| placeField 0 ln
  | .ecfg ln kd => placeField 12 0x3 ||| placeField 8 (kindCode kd) ||| placeField 0 ln
  | .een ln => placeField 12 0x4 ||| placeField 0 ln
  | .edis ln => placeField 12 0x5 ||| placeField 0 ln
  | .irqoff => placeField 12 0x6
  | .irqon => placeField 12 0x7
  | .disp => placeField 12 0x8
  | .scan => placeField 12 0x9
  | .rd ad => placeField 12 0xA ||| placeField 0 ad

/-- The agent that issues the command (the agent column of rule R73's table). No word carries its
agent and none is checked against it (rule R218). Log 10. -/
def Instr.agent : Instr → Agent
  | .tick => .timer
  | .line _ _ => .lineEnvironment
  | .ecfg _ _ => .host
  | .een _ => .host
  | .edis _ => .host
  | .irqoff => .host
  | .irqon => .host
  | .disp => .interruptUnit
  | .scan => .scanner
  | .rd _ => .host

/-- One row of the opcode map: a word `w` is the row's command iff `w &&& mask = pattern` (rule R73). -/
structure OpcodeRow where
  /-- The mnemonic. -/
  mnemonic : String
  /-- The match column. -/
  pattern : Word
  /-- The mask column. -/
  mask : Word
deriving DecidableEq, Repr

/-- The opcode map of rule R73. -/
def opcodeMap : List OpcodeRow :=
  [ ⟨"TICK", 0x1000#16, 0xFFFF#16⟩,
    ⟨"LINE", 0x2000#16, 0xFFEC#16⟩,
    ⟨"ECFG", 0x3000#16, 0xFCFC#16⟩,
    ⟨"EEN", 0x4000#16, 0xFFFC#16⟩,
    ⟨"EDIS", 0x5000#16, 0xFFFC#16⟩,
    ⟨"IRQOFF", 0x6000#16, 0xFFFF#16⟩,
    ⟨"IRQON", 0x7000#16, 0xFFFF#16⟩,
    ⟨"DISP", 0x8000#16, 0xFFFF#16⟩,
    ⟨"SCAN", 0x9000#16, 0xFFFF#16⟩,
    ⟨"RD", 0xA000#16, 0xFFF0#16⟩ ]

/-- The word `w` is the row's command (rule R73). -/
def OpcodeRow.covers (r : OpcodeRow) (w : Word) : Bool := w &&& r.mask == r.pattern

/-- The mnemonic of a command, as rule R73 spells it. -/
def Instr.mnemonic : Instr → String
  | .tick => "TICK"
  | .line _ _ => "LINE"
  | .ecfg _ _ => "ECFG"
  | .een _ => "EEN"
  | .edis _ => "EDIS"
  | .irqoff => "IRQOFF"
  | .irqon => "IRQON"
  | .disp => "DISP"
  | .scan => "SCAN"
  | .rd _ => "RD"

/-- The command word whose low `nbits` bits are those of `w` and whose other bits are 0. -/
def tableWord (nbits w : Nat) : Word := BitVec.ofNat 16 (w % 2 ^ nbits)

/-- The instruction the decoder reads from the word `tableWord nbits w`; none where it refuses. A command word is one
16-bit value and moves no bytes (rules R60, R70). -/
def decodeTableWord (nbits w : Nat) : Option Instr :=
  match decode (tableWord nbits w) with
  | .ok i => some i
  | .error _ => none

end Sys2Proof
end

