-- ==== Sys2Proof/Config.lean ====
section
/-! DEFINITION. What an implementation of the block fixes: the parameters of rules R6 and R7. The OPEN parameters of the
timer configuration are constants without a body, so that nothing can be proved of their values. -/

namespace Sys2Proof

/-- The timer-configuration record: the four 16-bit fields of `TCFG` and of `INIT_CFG` (rules R27 and R28). -/
structure TimerCfg where
  /-- `TINIT`, the start value. -/
  tinit : BitVec 16
  /-- `TCMP`, the compare value. -/
  tcmp : BitVec 16
  /-- `TPRE`, the code of the prescaler selection. -/
  tpre : BitVec 16
  /-- `TMODE`, the code of the timer mode. -/
  tmode : BitVec 16
deriving DecidableEq, Repr

/-- The two kinds of the line with the one-bit trigger field, in the order of their codes 0 and 1 (rule R33). -/
inductive EdgeKind where
  /-- Code 0: FallingEdge. -/
  | falling
  /-- Code 1: RisingEdge. -/
  | rising
deriving DecidableEq, Repr

/-- `INIT_TINIT`, the timer start value used at initialization: OPEN (rule R7, D16), so uninterpreted. Log 5. -/
opaque Config.initTinit : BitVec 16

/-- `INIT_TPRE`, the code of the prescaler selection: OPEN (rule R7, D16), so uninterpreted. Log 5. -/
opaque Config.initTpre : BitVec 16

/-- `INIT_TMODE`, the code of the timer mode: OPEN (rule R7, D16), so uninterpreted. Log 5. -/
opaque Config.initTmode : BitVec 16

/-- `TCMP_REF`, the reference compare value (rule R6). -/
def Config.tcmpRef : BitVec 16 := 1000#16

/-- `INIT_CFG`, the constant timer configuration used at initialization and at every resume (rule R28). -/
def Config.initCfg : TimerCfg :=
  { tinit := Config.initTinit, tcmp := Config.tcmpRef, tpre := Config.initTpre, tmode := Config.initTmode }

/-- The OPEN parameters that only the reset state reads: the trigger kinds `INIT_SENSE` and the idle levels
`INIT_LEVEL` (rule R7, D7, D8), arguments of `State.resetWith`. -/
structure ResetParams where
  /-- `INIT_SENSE[0]`. -/
  sense0 : TriggerKind
  /-- `INIT_SENSE[1]`. -/
  sense1 : TriggerKind
  /-- `INIT_SENSE[2]`. -/
  sense2 : EdgeKind
  /-- `INIT_LEVEL[0]`. -/
  level0 : LineLevel
  /-- `INIT_LEVEL[1]`. -/
  level1 : LineLevel
  /-- `INIT_LEVEL[2]`. -/
  level2 : LineLevel
deriving DecidableEq, Repr

/-- The default of every example of the spec (rule R7): FallingEdge and High on all three lines. DESIGN CHOICE, log 6. -/
def Config.defaultReset : ResetParams :=
  { sense0 := .fallingEdge, sense1 := .fallingEdge, sense2 := .falling,
    level0 := .high, level1 := .high, level2 := .high }

/-! The timing parameters of rule R6. No meaning reads them (rules R5(e), R114, R175, R253). Log 13. -/

/-- `F_SRC`, the timer's source clock in Hz: OPEN (rule R7, D16), so uninterpreted. Log 13. -/
opaque Config.fSrcHz : Nat

/-- `F_PCLK`, the post-divided timer clock in Hz (rule R6). -/
def Config.fPclkHz : Nat := 1000

/-- `DWELL_REF`, the dwell per digit in milliseconds (rule R6). -/
def Config.dwellRefMs : Nat := 4

/-- The frame of six dwells in milliseconds (rule R253). -/
def Config.frameMs : Nat := 6 * Config.dwellRefMs

/-- The tick period in microseconds by the formula of rule R114, `prescaler * (1 + compareValue) / F_SRC` with
`F_SRC / prescaler = F_PCLK`: 1.001 s under the reference values (C1). -/
def Config.tickPeriodMicros : Nat := (1 + Config.tcmpRef.toNat) * 1000000 / Config.fPclkHz

end Sys2Proof
end

