-- ==== Sys2Proof/Machine/State.lean ====
section
/-! DEFINITION. The state of the block as plain data (10_state.md, rules R20 to R42), its reset state, and the reasons
a step can stop. -/

namespace Sys2Proof.Machine

/-- The three external lines (rule R7): line 0 Reset, line 1 Pause, line 2 Resume. -/
inductive LineId where
  /-- Line 0, the Reset line. -/
  | l0
  /-- Line 1, the Pause line. -/
  | l1
  /-- Line 2, the Resume line, whose trigger field has one bit. -/
  | l2
deriving DecidableEq, Repr

/-- One value per line: an array `R[0..2]` (rule R9). -/
structure PerLine (α : Type) where
  /-- The element of line 0. -/
  l0 : α
  /-- The element of line 1. -/
  l1 : α
  /-- The element of line 2. -/
  l2 : α
deriving DecidableEq, Repr

/-- The six digit positions in S's fixed order, numbers 0 to 5 (rule R36). -/
inductive DigitPos where
  /-- Position 0. -/
  | secondsOnes
  /-- Position 1. -/
  | secondsTens
  /-- Position 2. -/
  | minutesOnes
  /-- Position 3. -/
  | minutesTens
  /-- Position 4. -/
  | hoursOnes
  /-- Position 5. -/
  | hoursTens
deriving DecidableEq, Repr

/-- One decimal digit per position: the visible frame `VIS[0..5]` (rule R39), or a DisplayFrame (rule R12). -/
structure DigitFrame where
  /-- Position 0. -/
  p0 : BitVec 4
  /-- Position 1. -/
  p1 : BitVec 4
  /-- Position 2. -/
  p2 : BitVec 4
  /-- Position 3. -/
  p3 : BitVec 4
  /-- Position 4. -/
  p4 : BitVec 4
  /-- Position 5. -/
  p5 : BitVec 4
deriving DecidableEq, Repr

/-- A ClockValue, the triple of the clock registers (rules R12, R22 to R24). -/
structure ClockValue where
  /-- `SEC` (rule R22). -/
  sec : BitVec 6
  /-- `MIN` (rule R23). -/
  min : BitVec 6
  /-- `HOUR` (rule R24). -/
  hour : BitVec 5
deriving DecidableEq, Repr

/-- TimerGateState (rule R26). -/
inductive Gate where
  /-- `GATE = 0`. -/
  | paused
  /-- `GATE = 1`. -/
  | running
deriving DecidableEq, Repr

/-- Everything the spec gives the machine (rule R42), and the command words still to be presented. -/
structure State where
  /-- `SEC`, `MIN`, `HOUR` (rules R22 to R24). -/
  clock : ClockValue
  /-- `GATE` (rule R26). -/
  gate : Gate
  /-- `TCFG` (rule R27). -/
  tcfg : TimerCfg
  /-- `TICK_PEND` (rule R29). -/
  tickPend : Bool
  /-- `TICK_OVR` (rule R30). -/
  tickOvr : Bool
  /-- `IE` (rule R31). -/
  ie : Bool
  /-- `EN[0..2]` (rule R32). -/
  en : PerLine Bool
  /-- `SENSE[0]` (rule R33). -/
  sense0 : TriggerKind
  /-- `SENSE[1]` (rule R33). -/
  sense1 : TriggerKind
  /-- `SENSE[2]`, one bit (rule R33). -/
  sense2 : EdgeKind
  /-- `PEND[0..2]` (rule R34). -/
  pend : PerLine Bool
  /-- `LAST[0..2]` (rule R35). -/
  last : PerLine LineLevel
  /-- `POS` (rule R36). Log 8. -/
  pos : DigitPos
  /-- `SEL` (rule R37). -/
  sel : BitVec 6
  /-- `BCD` (rule R38). -/
  bcd : BitVec 4
  /-- `VIS[0..5]` (rule R39). -/
  vis : DigitFrame
  /-- `RDATA` (rule R40). -/
  rdata : ReadWord
  /-- `REFUSED`, the run's mark (rule R41). -/
  refused : Bool
  /-- The MODEL's own field: the command words the agents present from now on, oldest first, in the interleaving they
  chose (rules R51, R52). DESIGN CHOICE, log 1. -/
  port : List Word
deriving DecidableEq, Repr

/-- The block raises no exception and no fault (rules R77, R210): there is no reason of this kind. Safe. -/
inductive Fault where
deriving DecidableEq, Repr

/-- Why a step has no next state. -/
inductive Refusal where
  /-- Raised by `exec` alone, in the arm of a command that has no meaning yet. Safe: the model stops. -/
  | notModelled (mnemonic : String)
  /-- Raised by `runWord` when a word is presented to a run whose `REFUSED` mark is set: the run has no meaning from
  the refused word on (rule R78). Safe: the model stops where hardware would go on. Log 3. -/
  | runMarkedRefused
deriving DecidableEq, Repr

/-- The reset state for given `INIT_SENSE` and `INIT_LEVEL` (rules R42, R240): those parameters are arguments. The port
holds nothing: no program is in the machine (log 1). -/
def State.resetWith (p : ResetParams) : State :=
  { clock := { sec := 0#6, min := 0#6, hour := 0#5 }
    gate := .running
    tcfg := Config.initCfg
    tickPend := false
    tickOvr := false
    ie := true
    en := { l0 := true, l1 := true, l2 := true }
    sense0 := p.sense0
    sense1 := p.sense1
    sense2 := p.sense2
    pend := { l0 := false, l1 := false, l2 := false }
    last := { l0 := p.level0, l1 := p.level1, l2 := p.level2 }
    pos := .secondsOnes
    sel := 0#6
    bcd := 0#4
    vis := { p0 := 0xF#4, p1 := 0xF#4, p2 := 0xF#4, p3 := 0xF#4, p4 := 0xF#4, p5 := 0xF#4 }
    rdata := 0#32
    refused := false
    port := [] }

/-- The reset state with the spec's default parameters (rule R7). DESIGN CHOICE for the OPEN ones, log 6.
It is the state at the end of initialization (rules R240, R241; log 7). -/
def State.reset : State := State.resetWith Config.defaultReset

end Sys2Proof.Machine
end

