-- ==== Sys2Proof/Machine/Operands.lean ====
section
/-! DEFINITION. The operand forms: the line a number names (rule R72), elements of per-line and per-position arrays
(rule R9), a line's trigger kind (rule R130), the positions' numbers, order, fields and digits (rules R36, R171), and the
clock's legal values (rule R25). -/

namespace Sys2Proof.Machine

/-- The line that a line number names: 0, 1 and 2 name lines, 3 names none (rule R72). Every other number is out of
range in the same way (rule R76; log 9). -/
def lineOf : Nat → Option LineId
  | 0 => some .l0
  | 1 => some .l1
  | 2 => some .l2
  | _ => none

/-- `R[i]`. -/
def PerLine.get {α : Type} (r : PerLine α) : LineId → α
  | .l0 => r.l0
  | .l1 => r.l1
  | .l2 => r.l2

/-- `R[i] <- v`. -/
def PerLine.set {α : Type} (r : PerLine α) (i : LineId) (v : α) : PerLine α :=
  match i with
  | .l0 => { r with l0 := v }
  | .l1 => { r with l1 := v }
  | .l2 => { r with l2 := v }

/-- The kind of the one-bit trigger field: `2 + SENSE[2]` (rule R130). -/
def kindOfEdge : EdgeKind → TriggerKind
  | .falling => .fallingEdge
  | .rising => .risingEdge

/-- The one-bit code of a kind on line 2, `KD - 2`; LowLevel and AnyEdge have none (rule R133). -/
def edgeOfKind : TriggerKind → Option EdgeKind
  | .lowLevel => none
  | .anyEdge => none
  | .fallingEdge => some .falling
  | .risingEdge => some .rising

/-- The code of the one-bit trigger field (rule R33). -/
def edgeCode : EdgeKind → Nat
  | .falling => 0
  | .rising => 1

/-- `kind(i)` (rule R130). -/
def kindOf (s : State) : LineId → TriggerKind
  | .l0 => s.sense0
  | .l1 => s.sense1
  | .l2 => kindOfEdge s.sense2

/-- The number 0 to 5 of a position (rule R36). -/
def posNumber : DigitPos → Nat
  | .secondsOnes => 0
  | .secondsTens => 1
  | .minutesOnes => 2
  | .minutesTens => 3
  | .hoursOnes => 4
  | .hoursTens => 5

/-- The position `(p + 1) % 6` (rule R170). -/
def nextPos : DigitPos → DigitPos
  | .secondsOnes => .secondsTens
  | .secondsTens => .minutesOnes
  | .minutesOnes => .minutesTens
  | .minutesTens => .hoursOnes
  | .hoursOnes => .hoursTens
  | .hoursTens => .secondsOnes

/-- `onehot6(p)` (rule R8). -/
def onehot6 (p : DigitPos) : BitVec 6 := 1#6 <<< posNumber p

/-- `VIS[p]`. -/
def DigitFrame.get (f : DigitFrame) : DigitPos → BitVec 4
  | .secondsOnes => f.p0
  | .secondsTens => f.p1
  | .minutesOnes => f.p2
  | .minutesTens => f.p3
  | .hoursOnes => f.p4
  | .hoursTens => f.p5

/-- `VIS[p] <- d`. -/
def DigitFrame.set (f : DigitFrame) (p : DigitPos) (d : BitVec 4) : DigitFrame :=
  match p with
  | .secondsOnes => { f with p0 := d }
  | .secondsTens => { f with p1 := d }
  | .minutesOnes => { f with p2 := d }
  | .minutesTens => { f with p3 := d }
  | .hoursOnes => { f with p4 := d }
  | .hoursTens => { f with p5 := d }

/-- The clock invariant: `SEC <= 59`, `MIN <= 59`, `HOUR <= 23` (rule R25). -/
def ClockValue.valid (c : ClockValue) : Bool :=
  decide (c.sec.toNat ≤ 59) && decide (c.min.toNat ≤ 59) && decide (c.hour.toNat ≤ 23)

/-- The clock field shown at a position (rule R171). -/
def fieldAt (c : ClockValue) : DigitPos → Nat
  | .secondsOnes => c.sec.toNat
  | .secondsTens => c.sec.toNat
  | .minutesOnes => c.min.toNat
  | .minutesTens => c.min.toNat
  | .hoursOnes => c.hour.toNat
  | .hoursTens => c.hour.toNat

/-- The divisor of a position: 1 selects the ones, 10 the tens (rule R171). -/
def divisorAt : DigitPos → Nat
  | .secondsOnes => 1
  | .secondsTens => 10
  | .minutesOnes => 1
  | .minutesTens => 10
  | .hoursOnes => 1
  | .hoursTens => 10

/-- `digit(p) = (field / divisor) % 10` (rule R171). -/
def digitAt (c : ClockValue) (p : DigitPos) : BitVec 4 := BitVec.ofNat 4 (fieldAt c p / divisorAt p % 10)

/-- The DisplayFrame of a ClockValue: its six digits (rules R12, R173). -/
def displayFrame (c : ClockValue) : DigitFrame :=
  { p0 := digitAt c .secondsOnes, p1 := digitAt c .secondsTens, p2 := digitAt c .minutesOnes,
    p3 := digitAt c .minutesTens, p4 := digitAt c .hoursOnes, p5 := digitAt c .hoursTens }

/-- The seconds of the day that a ClockValue stands for: `3600*h + 60*m + s` (rule R91). -/
def secondsOfDay (c : ClockValue) : Nat := 3600 * c.hour.toNat + 60 * c.min.toNat + c.sec.toNat

/-- The ClockValue of a number of seconds, modulo 24 hours: `HOUR = t / 3600`, `MIN = (t / 60) % 60`, `SEC = t % 60`
with `t = n % 86400` (rule R94). -/
def clockOfSeconds (n : Nat) : ClockValue :=
  { sec := BitVec.ofNat 6 (n % 86400 % 60), min := BitVec.ofNat 6 (n % 86400 / 60 % 60),
    hour := BitVec.ofNat 5 (n % 86400 / 3600) }

end Sys2Proof.Machine
end

