-- ==== Sys2Proof/Machine/Flags.lean ====
section
/-! DEFINITION. The latches and requests: which sample is an edge (rule R132), the tick latch and its overrun flag (rule
R90), the requests (rule R131) and the source they select (rules R151, R211, R213). The block has no arithmetic flags. -/

namespace Sys2Proof.Machine

/-- Whether a sample at level `lv`, the previous one at `prev`, is an edge of the kind (rule R132). LowLevel has no
edge: it requests through the level (rule R131). -/
def edgeSeen : TriggerKind → LineLevel → LineLevel → Bool
  | .lowLevel, _, _ => false
  | .anyEdge, prev, lv => decide (lv ≠ prev)
  | .fallingEdge, prev, lv => decide (prev = .high) && decide (lv = .low)
  | .risingEdge, prev, lv => decide (prev = .low) && decide (lv = .high)

/-- A tick while Running (rule R90): a full latch loses it and sets `TICK_OVR`. -/
def latchTick (s : State) : State :=
  if s.tickPend then { s with tickOvr := true } else { s with tickPend := true }

/-- `REQ_LINE(i)` (rule R131). -/
def requestLine (s : State) (i : LineId) : Bool :=
  s.en.get i && (s.pend.get i || (decide (kindOf s i = .lowLevel) && decide (s.last.get i = .low)))

/-- `REQ_TICK` (rule R131). -/
def requestTick (s : State) : Bool := s.tickPend

/-- The four interrupt sources (rule R211). -/
inductive Source where
  /-- `L0`, `L1` or `L2`. -/
  | line (i : LineId)
  /-- `T`. -/
  | tick
deriving DecidableEq, Repr

/-- `select()`: the requesting source of highest priority, `L0` > `L1` > `L2` > `T` (rules R151, R213). Log 12. -/
def selectSource (s : State) : Option Source :=
  if requestLine s .l0 then some (.line .l0)
  else if requestLine s .l1 then some (.line .l1)
  else if requestLine s .l2 then some (.line .l2)
  else if requestTick s then some .tick
  else none

end Sys2Proof.Machine
end

