-- ==== Sys2Proof/Machine/Ops.lean ====
section
/-! DEFINITION. The named operations over the registers: element writes of the per-line arrays, the four handler actions
(rule R11), taking an interrupt and returning from it as one shared operation (rule R215), a line sample (rule R132), a
trigger-kind write (rule R133), a scanner visit (rule R170) and the refusal mark (rule R78). -/

namespace Sys2Proof.Machine

/-- `EN[i] <- v`. -/
def State.setEn (s : State) (i : LineId) (v : Bool) : State := { s with en := s.en.set i v }

/-- `PEND[i] <- v`. -/
def State.setPend (s : State) (i : LineId) (v : Bool) : State := { s with pend := s.pend.set i v }

/-- `LAST[i] <- lv`. -/
def State.setLast (s : State) (i : LineId) (lv : LineLevel) : State := { s with last := s.last.set i lv }

/-- `advance_value`, the successor of a ClockValue (rule R91). -/
def advanceValue (c : ClockValue) : ClockValue :=
  if c.sec.toNat + 1 < 60 then { c with sec := c.sec + 1#6 }
  else if c.min.toNat + 1 < 60 then { c with sec := 0#6, min := c.min + 1#6 }
  else if c.hour.toNat + 1 < 24 then { sec := 0#6, min := 0#6, hour := c.hour + 1#5 }
  else { sec := 0#6, min := 0#6, hour := 0#5 }

/-- `ADVANCE`, the tick handler (rule R92). -/
def handlerAdvance (s : State) : State := { s with clock := advanceValue s.clock }

/-- `CLKRESET`, the Reset-line handler: it zeroes the clock and discards a latched tick (rule R93). -/
def handlerClkReset (s : State) : State :=
  { s with clock := { sec := 0#6, min := 0#6, hour := 0#5 }, tickPend := false }

/-- `GATEOFF`, the Pause-line handler: it pauses and discards a latched tick (rule R110). -/
def handlerGateOff (s : State) : State := { s with gate := .paused, tickPend := false }

/-- `GATEON`, the Resume-line handler: it runs with exactly the timer configuration of initialization (rule R111). -/
def handlerGateOn (s : State) : State := { s with gate := .running, tcfg := Config.initCfg }

/-- The handler bound to a source (rule R212). -/
def runHandler : Source → State → State
  | .line .l0, s => handlerClkReset s
  | .line .l1, s => handlerGateOff s
  | .line .l2, s => handlerGateOn s
  | .tick, s => handlerAdvance s

/-- Entry: the serviced source's latch is cleared; nothing is saved and no mode changes (rules R150, R215). -/
def enterHandler : Source → State → State
  | .line i, s => s.setPend i false
  | .tick, s => { s with tickPend := false }

/-- Return: nothing is restored, `IE` among it; the step ends (rule R215). -/
def returnFromHandler (s : State) : State := s

/-- Taking an interrupt: entry, the handler to completion, return, all in one step (rules R150, R215, R216). -/
def service (src : Source) (s : State) : State := returnFromHandler (runHandler src (enterHandler src s))

/-- A sample of line `i` at level `lv` (rule R132): the level is recorded even while the line is disarmed; the latch is
set only when the line is armed and the sample is an edge of its kind. -/
def sampleLine (i : LineId) (lv : LineLevel) (s : State) : State :=
  if s.en.get i && edgeSeen (kindOf s i) (s.last.get i) lv then (s.setLast i lv).setPend i true
  else s.setLast i lv

/-- A write of line `i`'s trigger kind (rule R133): LowLevel and AnyEdge on line 2 change nothing. -/
def setSense (i : LineId) (kd : TriggerKind) (s : State) : State :=
  match i with
  | .l0 => { s with sense0 := kd }
  | .l1 => { s with sense1 := kd }
  | .l2 =>
    match edgeOfKind kd with
    | some e => { s with sense2 := e }
    | none => s

/-- One visit of the scanner (rule R170): `SEL`, `BCD` and `VIS[p]` change together and `POS` moves on. -/
def visitPosition (s : State) : State :=
  { s with
    sel := onehot6 s.pos
    bcd := digitAt s.clock s.pos
    vis := s.vis.set s.pos (digitAt s.clock s.pos)
    pos := nextPos s.pos }

/-- `refuse`: the run is marked and nothing else changes (rule R78). -/
def refuse (s : State) : State := { s with refused := true }

end Sys2Proof.Machine
end

