-- ==== Sys2Proof/Machine/Clock.lean ====
section
/-! DEFINITION. The clock counter family: `TICK` (40_clock.md). `ADVANCE` and `CLKRESET` are handler actions and stand in
Machine/Ops.lean. -/

namespace Sys2Proof.Machine

/-- `TICK` (rule R90): while Paused the tick is ignored and leaves no trace. Log 11. -/
def execTick (s : State) : Host.Outcome State Fault Refusal :=
  match s.gate with
  | .running => .next (latchTick s)
  | .paused => .next s

end Sys2Proof.Machine
end

