-- ==== Sys2Proof/Machine/Gate.lean ====
section
/-! DEFINITION. The timer interface of the gate family (41_gate.md rule R113): the two outputs the block drives to the
timer. `GATEOFF` and `GATEON` are handler actions and stand in Machine/Ops.lean. -/

namespace Sys2Proof.Machine

/-- `ARMED = GATE` (rule R113): 1 while Running. -/
def armedOutput (s : State) : Bool := decide (s.gate = .running)

/-- `CFG = TCFG` (rule R113). -/
def cfgOutput (s : State) : TimerCfg := s.tcfg

end Sys2Proof.Machine
end

