-- ==== Sys2Proof/Machine/Interrupt.lean ====
section
/-! DEFINITION. The interrupt dispatch family: `DISP`, `IRQOFF`, `IRQON` (43_dispatch.md). -/

namespace Sys2Proof.Machine

/-- `IRQOFF` (rule R152). -/
def execIrqoff (s : State) : Host.Outcome State Fault Refusal := .next { s with ie := false }

/-- `IRQON` (rule R153). -/
def execIrqon (s : State) : Host.Outcome State Fault Refusal := .next { s with ie := true }

/-- `DISP` (rule R150): at most one handler runs; with `IE = 0` or nothing to service nothing changes. -/
def execDisp (s : State) : Host.Outcome State Fault Refusal :=
  if s.ie then
    match selectSource s with
    | some src => .next (service src s)
    | none => .next s
  else .next s

end Sys2Proof.Machine
end

