-- ==== Sys2Proof/Machine/Lines.lean ====
section
/-! DEFINITION. The edge-line family: `LINE`, `ECFG`, `EEN`, `EDIS` (42_edge_lines.md). A number that names no line
changes nothing (rule R76). -/

namespace Sys2Proof.Machine

/-- `LINE ln, lv` (rule R132). -/
def execLine (ln : Nat) (lv : LineLevel) (s : State) : Host.Outcome State Fault Refusal :=
  match lineOf ln with
  | none => .next s
  | some i => .next (sampleLine i lv s)

/-- `ECFG ln, kind` (rule R133). -/
def execEcfg (ln : Nat) (kd : TriggerKind) (s : State) : Host.Outcome State Fault Refusal :=
  match lineOf ln with
  | none => .next s
  | some i => .next (setSense i kd s)

/-- `EEN ln` (rule R134): arming sets no latch. -/
def execEen (ln : Nat) (s : State) : Host.Outcome State Fault Refusal :=
  match lineOf ln with
  | none => .next s
  | some i => .next (s.setEn i true)

/-- `EDIS ln` (rule R135): a latched edge is discarded. -/
def execEdis (ln : Nat) (s : State) : Host.Outcome State Fault Refusal :=
  match lineOf ln with
  | none => .next s
  | some i => .next ((s.setEn i false).setPend i false)

end Sys2Proof.Machine
end

