-- ==== Sys2Proof/Machine/ReadPort.lean ====
section
/-! DEFINITION. The read port family: `RD` and the read-space map (45_readport.md). -/

namespace Sys2Proof.Machine

/-- A field placed with its bit 0 at bit `lo` of a read word, every other bit 0 (rules R8, R191). -/
def placeAt {n : Nat} (lo : Nat) (v : BitVec n) : ReadWord := v.setWidth 32 <<< lo

/-- A flag as a one-bit field. -/
def flagBit (b : Bool) : BitVec 1 := BitVec.ofBool b

/-- A level as a one-bit field: 1 = High (rule R35). -/
def levelBit (lv : LineLevel) : BitVec 1 := BitVec.ofNat 1 (levelCode lv)

/-- `GATE` as a one-bit field: 1 = Running (rule R26). -/
def gateBit : Gate → BitVec 1
  | .paused => 0#1
  | .running => 1#1

/-- Word 0x3, CLOCK: the three fields from one state (rule R191). -/
def clockWord (s : State) : ReadWord := placeAt 16 s.clock.hour ||| placeAt 8 s.clock.min ||| placeAt 0 s.clock.sec

/-- Word 0x4, CTRL (rule R191). -/
def ctrlWord (s : State) : ReadWord :=
  placeAt 0 (gateBit s.gate) ||| placeAt 1 (flagBit s.ie) ||| placeAt 2 (flagBit s.tickPend)
    ||| placeAt 3 (flagBit s.tickOvr) ||| placeAt 4 (flagBit (requestLine s .l0))
    ||| placeAt 5 (flagBit (requestLine s .l1)) ||| placeAt 6 (flagBit (requestLine s .l2))
    ||| placeAt 7 (flagBit (requestTick s))

/-- Word 0x5, EINT (rule R191). -/
def eintWord (s : State) : ReadWord :=
  placeAt 0 (flagBit s.en.l0) ||| placeAt 1 (flagBit s.en.l1) ||| placeAt 2 (flagBit s.en.l2)
    ||| placeAt 4 (flagBit s.pend.l0) ||| placeAt 5 (flagBit s.pend.l1) ||| placeAt 6 (flagBit s.pend.l2)
    ||| placeAt 8 (levelBit s.last.l0) ||| placeAt 9 (levelBit s.last.l1) ||| placeAt 10 (levelBit s.last.l2)

/-- Word 0x6, ESENSE (rule R191). -/
def esenseWord (s : State) : ReadWord :=
  placeAt 0 (BitVec.ofNat 2 (kindCode s.sense0)) ||| placeAt 2 (BitVec.ofNat 2 (kindCode s.sense1))
    ||| placeAt 4 (BitVec.ofNat 1 (edgeCode s.sense2))

/-- Word 0x7, SCANOUT (rule R191). -/
def scanoutWord (s : State) : ReadWord :=
  placeAt 0 (BitVec.ofNat 3 (posNumber s.pos)) ||| placeAt 8 s.sel ||| placeAt 16 s.bcd

/-- Word 0x8, VIS: `VIS[p]` at bits 4p+3:4p (rule R191). -/
def visWord (s : State) : ReadWord :=
  placeAt 0 s.vis.p0 ||| placeAt 4 s.vis.p1 ||| placeAt 8 s.vis.p2 ||| placeAt 12 s.vis.p3
    ||| placeAt 16 s.vis.p4 ||| placeAt 20 s.vis.p5

/-- `RegRead(ad)`, the read-space map (rule R191); addresses 0xC to 0xF are unassigned and read 0 (rule R192). -/
def regRead (s : State) : Nat → ReadWord
  | 0x0 => placeAt 0 s.clock.sec
  | 0x1 => placeAt 0 s.clock.min
  | 0x2 => placeAt 0 s.clock.hour
  | 0x3 => clockWord s
  | 0x4 => ctrlWord s
  | 0x5 => eintWord s
  | 0x6 => esenseWord s
  | 0x7 => scanoutWord s
  | 0x8 => visWord s
  | 0x9 => placeAt 0 s.tcfg.tinit
  | 0xA => placeAt 0 s.tcfg.tcmp
  | 0xB => placeAt 0 s.tcfg.tpre ||| placeAt 16 s.tcfg.tmode
  | _ => 0#32

/-- `RD ad` (rule R190): it writes `RDATA` and nothing else. -/
def execRd (ad : Nat) (s : State) : Host.Outcome State Fault Refusal := .next { s with rdata := regRead s ad }

/-- Byte `k` of a read word, should one be carried as bytes: bits `8k+7` to `8k`, little-endian (rule R60). -/
def readByte (v : ReadWord) (k : Nat) : BitVec 8 := v.extractLsb' (8 * k) 8

end Sys2Proof.Machine
end

