-- ==== Sys2Proof/Machine/Scanner.lean ====
section
/-! DEFINITION. The display scanner family: `SCAN` (44_scanner.md). -/

namespace Sys2Proof.Machine

/-- `SCAN` (rule R170). -/
def execScan (s : State) : Host.Outcome State Fault Refusal := .next (visitPosition s)

/-- The visible frame read as a clock display: hours, minutes, seconds, tens before ones (rule R172). -/
def displayReading (s : State) : List (BitVec 4) :=
  [s.vis.p5, s.vis.p4, s.vis.p3, s.vis.p2, s.vis.p1, s.vis.p0]

end Sys2Proof.Machine
end

