-- ==== Sys2Proof/Machine/Dispatch.lean ====
section
/-! DEFINITION. The dispatch of a command to its meaning: one arm per constructor. -/

namespace Sys2Proof.Machine

def exec (i : Instr) (s : State) : Host.Outcome State Fault Refusal :=
  match i with
  | .tick => Sys2Proof.Machine.execTick s
  | .line ln lv => Sys2Proof.Machine.execLine ln lv s
  | .ecfg ln kd => Sys2Proof.Machine.execEcfg ln kd s
  | .een ln => Sys2Proof.Machine.execEen ln s
  | .edis ln => Sys2Proof.Machine.execEdis ln s
  | .irqoff => Sys2Proof.Machine.execIrqoff s
  | .irqon => Sys2Proof.Machine.execIrqon s
  | .disp => Sys2Proof.Machine.execDisp s
  | .scan => Sys2Proof.Machine.execScan s
  | .rd ad => Sys2Proof.Machine.execRd ad s

end Sys2Proof.Machine
end

