-- ==== Sys2Proof/Machine/Port.lean ====
section
/-! DEFINITION. The command port: how a presented word is taken, checked, decoded and run, and how words are placed on the
port. -/

namespace Sys2Proof.Machine

/-- One step applies one command word to the state (rule R50). A word presented to a run marked refused has no meaning
(rule R78, log 3); a step from a state outside the clock invariant is refused (rule R25, log 4); a reserved or
malformed word is refused (rules R74, R75, R78). -/
def runWord (w : Word) (s : State) : Host.Outcome State Fault Refusal :=
  if s.refused then .refused .runMarkedRefused
  else if s.clock.valid then
    match decode w with
    | .ok i => exec i s
    | .error _ => .next (refuse s)
  else .next (refuse s)

/-- The oldest word on the port is taken and run. With no word presented nothing changes: the state changes only by
steps, and a step applies a word (rule R50). Log 2. -/
def takeWord (s : State) : Host.Outcome State Fault Refusal :=
  match s.port with
  | [] => .next s
  | w :: rest => runWord w { s with port := rest }

/-- The command the next step runs: none where no word is presented or the word is refused. -/
def nextCommand (s : State) : Option Instr :=
  match s.port with
  | [] => none
  | w :: _ =>
    if s.refused then none
    else if s.clock.valid then
      match decode w with
      | .ok i => some i
      | .error _ => none
    else none

/-- An agent presents `w` next, before every word already on the port (log 1). -/
def presentFirst (w : Word) (s : State) : State := { s with port := w :: s.port }

/-- An agent presents `w` after every word already on the port (log 1). -/
def presentLast (w : Word) (s : State) : State := { s with port := s.port ++ [w] }

/-- Commands run one after the other, as the words between which nothing else is presented; the first that gives no
next state ends the run. -/
def execAll : List Instr → State → Host.Outcome State Fault Refusal
  | [], s => .next s
  | i :: is, s =>
    match exec i s with
    | .next t => execAll is t
    | .fault r => .fault r
    | .refused r => .refused r

end Sys2Proof.Machine
end

