-- ==== Sys2Proof/Machine/Step.lean ====
section
/-! DEFINITION. The step, and the placing of a command word where the next step takes it. -/

namespace Sys2Proof.Machine

/-- One step of the block (rule R50). -/
def step (s : State) : Host.Outcome State Fault Refusal := takeWord s

/-- The command word `w` presented so that the very next step runs it; bits above `nbits` are 0 (log 1). -/
def State.withFetchWord (s : State) (nbits w : Nat) : State := presentFirst (tableWord nbits w) s

end Sys2Proof.Machine
end

