-- ==== Sys2Proof/Machine/Pseudo.lean ====
section
/-! DEFINITION. The pseudo-instructions and their expansions (rule R81). -/

namespace Sys2Proof.Machine

/-- `PRESS ln`: one push and release of an idle-high button. -/
def pseudoPress (ln : Nat) : List Instr := [.line ln .low, .line ln .high]

/-- `SECOND`: one tick delivered and serviced. -/
def pseudoSecond : List Instr := [.tick, .disp]

/-- `FRAME`: one full cycle of six visits. -/
def pseudoFrame : List Instr := List.replicate 6 .scan

/-- `CONFIGURE ln, kind`: S's `configure`, which also arms the line (C5). -/
def pseudoConfigure (ln : Nat) (kd : TriggerKind) : List Instr := [.ecfg ln kd, .een ln]

/-- `DECONFIGURE ln`: S's `deconfigure`. -/
def pseudoDeconfigure (ln : Nat) : List Instr := [.edis ln]

/-- `SNAPSHOT`: a consistent copy of the ClockValue. -/
def pseudoSnapshot : List Instr := [.rd 0x3]

/-- The command words of a list of commands. -/
def wordsOf (is : List Instr) : List Word := is.map encode

/-- `repeat n` of a stimulus listing (rule R80): the block of commands `n` times. -/
def repeatBlock (n : Nat) (is : List Instr) : List Instr := (List.replicate n is).flatten

end Sys2Proof.Machine
end

