-- ==== Sys2Proof/Machine/Asm.lean ====
section
/-! DEFINITION. The assembler syntax of rule R80, one command per line: a printer and a reader. What the rule leaves open
(white space, capitals, leading zeros) is DESIGN CHOICE, log 16. Nothing of the machine depends on this file. -/

namespace Sys2Proof.Machine

/-- The name of a trigger kind in the assembler (rule R80). -/
def kindName : TriggerKind → String
  | .lowLevel => "LOW"
  | .anyEdge => "ANY"
  | .fallingEdge => "FALL"
  | .risingEdge => "RISE"

/-- The kind a name stands for; none for any other text. -/
def kindOfName (cs : List Char) : Option TriggerKind :=
  if cs = "LOW".toList then some .lowLevel
  else if cs = "ANY".toList then some .anyEdge
  else if cs = "FALL".toList then some .fallingEdge
  else if cs = "RISE".toList then some .risingEdge
  else none

/-- The value of one digit in a base up to 16; none for any other character. -/
def digitValue (base : Nat) (c : Char) : Option Nat :=
  let v :=
    if '0' ≤ c ∧ c ≤ '9' then c.toNat - '0'.toNat
    else if 'a' ≤ c ∧ c ≤ 'f' then c.toNat - 'a'.toNat + 10
    else if 'A' ≤ c ∧ c ≤ 'F' then c.toNat - 'A'.toNat + 10
    else 16
  if v < base then some v else none

/-- The number that the digits after `acc` stand for. -/
def digitsValue (base : Nat) : Nat → List Char → Option Nat
  | acc, [] => some acc
  | acc, c :: cs =>
    match digitValue base c with
    | some d => digitsValue base (base * acc + d) cs
    | none => none

/-- A decimal number. -/
def readDecimal : List Char → Option Nat
  | [] => none
  | cs => digitsValue 10 0 cs

/-- A read address: decimal, or hexadecimal after `0x` (rule R80). -/
def readNumber : List Char → Option Nat
  | '0' :: 'x' :: c :: cs => digitsValue 16 0 (c :: cs)
  | cs => readDecimal cs

/-- The text before the first `;`, which starts a comment (rule R80). -/
def dropComment (cs : List Char) : List Char := cs.takeWhile (fun c => c ≠ ';')

/-- The text without its spaces at both ends. -/
def trimSpaces (cs : List Char) : List Char :=
  ((cs.dropWhile (fun c => c = ' ')).reverse.dropWhile (fun c => c = ' ')).reverse

/-- The pieces between the separators `sep`. -/
def splitAtChar (sep : Char) : List Char → List (List Char)
  | [] => [[]]
  | c :: cs =>
    if c = sep then [] :: splitAtChar sep cs
    else
      match splitAtChar sep cs with
      | piece :: pieces => (c :: piece) :: pieces
      | [] => [[c]]

/-- The operands of a line: the pieces between commas, trimmed; none where there is no text. -/
def readOperands (cs : List Char) : List (List Char) :=
  match trimSpaces cs with
  | [] => []
  | ds => (splitAtChar ',' ds).map trimSpaces

/-- A level operand: the decimal number 0 or 1. -/
def readLevel (cs : List Char) : Option LineLevel :=
  match readDecimal cs with
  | some 0 => some .low
  | some 1 => some .high
  | _ => none

/-- The command of a mnemonic and its operands, if its operands fit their fields (rule R72). -/
def assemble (mnemonic : List Char) (operands : List (List Char)) : Option Instr :=
  let parsed : Option Instr :=
    match operands with
    | [] =>
      if mnemonic = "TICK".toList then some .tick
      else if mnemonic = "IRQOFF".toList then some .irqoff
      else if mnemonic = "IRQON".toList then some .irqon
      else if mnemonic = "DISP".toList then some .disp
      else if mnemonic = "SCAN".toList then some .scan
      else none
    | [a] =>
      if mnemonic = "EEN".toList then (readDecimal a).map .een
      else if mnemonic = "EDIS".toList then (readDecimal a).map .edis
      else if mnemonic = "RD".toList then (readNumber a).map .rd
      else none
    | [a, b] =>
      if mnemonic = "LINE".toList then
        match readDecimal a, readLevel b with
        | some ln, some lv => some (.line ln lv)
        | _, _ => none
      else if mnemonic = "ECFG".toList then
        match readDecimal a, kindOfName b with
        | some ln, some kd => some (.ecfg ln kd)
        | _, _ => none
      else none
    | _ => none
  match parsed with
  | some i => if i.wf then some i else none
  | none => none

/-- The command a line of text holds: mnemonic, then operands separated by commas; none where it holds none. -/
def assembleLine (text : List Char) : Option Instr :=
  let line := trimSpaces (dropComment text)
  assemble (line.takeWhile (fun c => c ≠ ' ')) (readOperands (line.dropWhile (fun c => c ≠ ' ')))

/-- A number below 16 in decimal. -/
def showNumber (n : Nat) : String :=
  ["0", "1", "2", "3", "4", "5", "6", "7", "8", "9", "10", "11", "12", "13", "14", "15"].getD n ""

/-- A level in decimal. -/
def showLevel : LineLevel → String
  | .low => "0"
  | .high => "1"

/-- The line of a well-formed command (rule R80). -/
def showInstr : Instr → String
  | .tick => "TICK"
  | .line ln lv => "LINE " ++ showNumber ln ++ ", " ++ showLevel lv
  | .ecfg ln kd => "ECFG " ++ showNumber ln ++ ", " ++ kindName kd
  | .een ln => "EEN " ++ showNumber ln
  | .edis ln => "EDIS " ++ showNumber ln
  | .irqoff => "IRQOFF"
  | .irqon => "IRQON"
  | .disp => "DISP"
  | .scan => "SCAN"
  | .rd ad => "RD " ++ showNumber ad

end Sys2Proof.Machine
end

