-- ==== Sys2Proof/Safety.lean ====
section
/-! DEFINITION. What claims about the block assume and conclude: the invariants of rule R43, the states reachable from reset
under every interleaving (rule R52), the premises on the agents (rules R53, R136, R248; log 15) and gate strategy (a) (rule R113). -/

namespace Sys2Proof.Machine

/-- Rule R43 (a) to (f), and the legal values of the scanner's outputs (rules R38, R39). Part (g) speaks of the history and
is stated over `Reachable`. -/
structure BlockInv (s : State) : Prop where
  /-- (a) A latched tick implies Running. -/
  tick_needs_running : s.tickPend = true → s.gate = .running
  /-- (b) A disarmed line has no latch set. -/
  disarmed_has_no_latch : ∀ i, s.en.get i = false → s.pend.get i = false
  /-- (c) `POS <= 5`. -/
  pos_legal : posNumber s.pos ≤ 5
  /-- (d) `SEL` is 0 or selects exactly the position visited last, `(POS + 5) % 6`. -/
  sel_legal : s.sel = 0#6 ∨ s.sel = 1#6 <<< ((posNumber s.pos + 5) % 6)
  /-- (e) `TCFG = INIT_CFG`. -/
  cfg_constant : s.tcfg = Config.initCfg
  /-- (f) The clock invariant of rule R25. -/
  clock_valid : s.clock.valid = true
  /-- `BCD` is a decimal digit (rule R38). -/
  bcd_digit : s.bcd.toNat ≤ 9
  /-- `VIS[p]` is a decimal digit or blank (rule R39). -/
  vis_digit_or_blank : ∀ p, (s.vis.get p).toNat ≤ 9 ∨ s.vis.get p = 0xF#4

/-- The states reachable from reset, for every choice of the OPEN reset parameters and every interleaving of the agents'
words (rule R52), each with its history: the commands run since reset, oldest first, and the state each was run in. -/
inductive Reachable : List (State × Instr) → State → Prop where
  /-- Reset. -/
  | reset (p : ResetParams) : Reachable [] (State.resetWith p)
  /-- Some agent presents some word. -/
  | present {h : List (State × Instr)} {s : State} (w : Word) : Reachable h s → Reachable h (presentLast w s)
  /-- The block takes a step. -/
  | step {h : List (State × Instr)} {s t : State} :
      Reachable h s → step s = .next t → Reachable (h ++ (nextCommand s).toList.map (fun i => (s, i))) t

/-- A `SCAN` of the history has visited position `p` (rule R43(g)). -/
def visited (h : List (State × Instr)) (p : DigitPos) : Prop := ∃ u, (u, Instr.scan) ∈ h ∧ u.pos = p

/-- No line requests service (rule R131). -/
def noLineRequest (s : State) : Prop := ∀ i, requestLine s i = false

/-- The states of a run in which the agents present the words of an endless schedule one after the other, from `s`;
none after a word that gives no next state. -/
def stateAt (s : State) (words : Nat → Word) : Nat → Option State
  | 0 => some s
  | n + 1 =>
    match stateAt s words n with
    | some u =>
      match runWord (words n) u with
      | .next t => some t
      | .fault _ => none
      | .refused _ => none
    | none => none

/-- The run has a meaning throughout: every step has a next state and `REFUSED` stays 0 (rules R41, R78). -/
def meaningfulRun (s : State) (words : Nat → Word) : Prop :=
  ∀ n, ∃ u, stateAt s words n = some u ∧ u.refused = false

/-- Premise (a) of rule R53: the scanner issues `SCAN` forever. -/
def scannerProgress (words : Nat → Word) : Prop := ∀ n, ∃ m, n ≤ m ∧ words m = encode .scan

/-- Premise (b) of rule R53: whenever `IE = 1` and a request exists, a `DISP` eventually follows. -/
def interruptService (s : State) (words : Nat → Word) : Prop :=
  ∀ n u, stateAt s words n = some u → u.ie = true → selectSource u ≠ none → ∃ m, n ≤ m ∧ words m = encode .disp

/-- Premise (c) of rule R53: between two `TICK` words with `GATE = 1` a `DISP` services the first tick. -/
def noTickOverrun (s : State) (words : Nat → Word) : Prop :=
  ∀ a b u v, a < b → words a = encode .tick → words b = encode .tick →
    stateAt s words a = some u → u.gate = .running → stateAt s words b = some v → v.gate = .running →
    ∃ m x, a < m ∧ m < b ∧ words m = encode .disp ∧ stateAt s words m = some x ∧ x.ie = true ∧
      selectSource x = some .tick

/-- The levels sampled on line number `ln` in a list of commands, oldest first. -/
def samplesOf (ln : Nat) : List Instr → List LineLevel
  | [] => []
  | .line k lv :: is => if k = ln then lv :: samplesOf ln is else samplesOf ln is
  | _ :: is => samplesOf ln is

/-- Levels that are whole presses of an idle-high button: Low then High, again and again. -/
def wholePresses : List LineLevel → Bool
  | [] => true
  | .low :: .high :: ls => wholePresses ls
  | _ => false

/-- The premise of rules R136 and R248 on the line environment: each press of a line presents one `PRESS` pair. Log 15. -/
def noBounce (is : List Instr) : Prop := ∀ ln, wholePresses (samplesOf ln is) = true

/-- The commands of a run under gate strategy (a) (rule R113): the same commands without the ticks that a source
running on while Paused would issue. -/
def withoutPausedTicks : List Instr → State → List Instr
  | [], _ => []
  | i :: is, s =>
    let rest :=
      match exec i s with
      | .next t => withoutPausedTicks is t
      | .fault _ => []
      | .refused _ => []
    if i = .tick ∧ s.gate = .paused then rest else i :: rest

end Sys2Proof.Machine
end

