-- ==== Sys2Proof/Certificates/Slice0/Obligations.lean ====
section
/-! DEFINITION. The statements for the provers. An equation `exec i s = .next t` gives the whole effect: every register that
`t` does not name anew is unchanged. -/

open Sys2Proof Sys2Proof.Machine

/-! ### Reset, the command port, refusals -/

/-- Rule R42: the reset value of every piece of state, with `INIT_CFG`, `INIT_SENSE` and `INIT_LEVEL` open, and the
default its table gives for the last two. -/
def Obligations.ResetStateIsTheTable : Prop :=
  (∀ p : ResetParams,
    let s := State.resetWith p
    s.clock.sec = 0 ∧ s.clock.min = 0 ∧ s.clock.hour = 0 ∧ s.gate = .running ∧
    s.tcfg = { tinit := Config.initTinit, tcmp := 1000#16, tpre := Config.initTpre, tmode := Config.initTmode } ∧
    s.tickPend = false ∧ s.tickOvr = false ∧ s.ie = true ∧ (∀ i, s.en.get i = true) ∧
    s.sense0 = p.sense0 ∧ s.sense1 = p.sense1 ∧ s.sense2 = p.sense2 ∧ (∀ i, s.pend.get i = false) ∧
    s.last.get .l0 = p.level0 ∧ s.last.get .l1 = p.level1 ∧ s.last.get .l2 = p.level2 ∧
    s.pos = .secondsOnes ∧ s.sel = 0 ∧ s.bcd = 0 ∧ (∀ q, s.vis.get q = 0xF#4) ∧ s.rdata = 0 ∧ s.refused = false) ∧
  (∀ i, kindOf (State.resetWith Config.defaultReset) i = .fallingEdge) ∧
  (∀ i, (State.resetWith Config.defaultReset).last.get i = .high)

/-- Rules R50 and R70 through the model's port (log 1): when the oldest presented word decodes to a command, the step is
that command's meaning at the state without the word. -/
def Obligations.StepRunsTheDecodedCommand : Prop :=
  ∀ (s : State) (w : Word) (rest : List Word) (i : Instr),
    s.port = w :: rest → s.refused = false → s.clock.valid = true → decode w = .ok i →
    step s = exec i { s with port := rest }

/-- The model's choice (log 2), from rule R50's "changes only by steps": with no word presented nothing changes. -/
def Obligations.NoWordNoChange : Prop := ∀ s : State, s.port = [] → step s = .next s

/-- The model's choice (log 1): a word placed for the next step is the word the next step runs, at the state it was
placed in. -/
def Obligations.PlacedWordRunsNext : Prop :=
  ∀ (s : State) (i : Instr), i.wf = true → s.refused = false → s.clock.valid = true →
    step (s.withFetchWord 16 (encode i).toNat) = exec i s

/-- From rule R78: a refused word sets `REFUSED` and changes nothing else; the word itself leaves the model's port (log
1), and a later word answers the refusal `runMarkedRefused`, the model's reading of "no meaning" (log 3). -/
def Obligations.RefusedWordMarksTheRun : Prop :=
  ∀ (s : State) (w : Word) (rest : List Word), s.port = w :: rest →
    (s.refused = false → (∃ e, decode w = .error e) →
      step s = .next { s with port := rest, refused := true }) ∧
    (s.refused = true → step s = .refused .runMarkedRefused)

/-- From rule R25: every step keeps the clock invariant, and a step from a state that breaks it is refused: the model's
reading is that it sets `REFUSED` (log 4). -/
def Obligations.ClockInvariantIsKeptOrRefused : Prop :=
  (∀ s t : State, s.clock.valid = true → step s = .next t →
    t.clock.sec.toNat ≤ 59 ∧ t.clock.min.toNat ≤ 59 ∧ t.clock.hour.toNat ≤ 23) ∧
  (∀ (s : State) (w : Word) (rest : List Word), s.port = w :: rest → s.refused = false →
    ¬(s.clock.sec.toNat ≤ 59 ∧ s.clock.min.toNat ≤ 59 ∧ s.clock.hour.toNat ≤ 23) →
    step s = .next { s with port := rest, refused := true })

/-- No command traps (rules R210 and R77). That a step answers a next state from every state with `REFUSED = 0` is the
model's reading: with no word it idles (log 2), a refused word marks the run (log 3), and so does a word in a state outside
the clock invariant (log 4). -/
def Obligations.NothingTraps : Prop :=
  (∀ (i : Instr) (s : State), ∃ t, exec i s = .next t ∧ t.refused = s.refused ∧ t.port = s.port) ∧
  (∀ s : State, s.refused = false → ∃ t, step s = .next t)

/-! ### Encoding -/

/-- Rules R74 and R75: reserved opcodes and nonzero must-be-zero bits are refused. -/
def Obligations.ReservedAndMalformedWordsAreRefused : Prop :=
  (∀ w : Word, (w.extractLsb' 12 4).toNat ∈ [0x0, 0xB, 0xC, 0xD, 0xE, 0xF] →
    decode w = .error (.reservedOpcode (w.extractLsb' 12 4).toNat)) ∧
  (∀ w : Word, (w.extractLsb' 12 4).toNat ∉ [0x0, 0xB, 0xC, 0xD, 0xE, 0xF] →
    (∀ r ∈ opcodeMap, w &&& r.mask ≠ r.pattern) → decode w = .error (.mustBeZero (w.extractLsb' 12 4).toNat)) ∧
  decode 0x1001#16 = .error (.mustBeZero 0x1) ∧ decode 0x2020#16 = .error (.mustBeZero 0x2)

/-- Rule R73: a word is a row's command if and only if its masked bits match, and each row has its agent. That no two rows
overlap is the spec's own inference, marked derived in rule R73. -/
def Obligations.OpcodeMapDecides : Prop :=
  opcodeMap = [⟨"TICK", 0x1000#16, 0xFFFF#16⟩, ⟨"LINE", 0x2000#16, 0xFFEC#16⟩, ⟨"ECFG", 0x3000#16, 0xFCFC#16⟩,
    ⟨"EEN", 0x4000#16, 0xFFFC#16⟩, ⟨"EDIS", 0x5000#16, 0xFFFC#16⟩, ⟨"IRQOFF", 0x6000#16, 0xFFFF#16⟩,
    ⟨"IRQON", 0x7000#16, 0xFFFF#16⟩, ⟨"DISP", 0x8000#16, 0xFFFF#16⟩, ⟨"SCAN", 0x9000#16, 0xFFFF#16⟩,
    ⟨"RD", 0xA000#16, 0xFFF0#16⟩] ∧
  (∀ w : Word, ∀ r ∈ opcodeMap, w &&& r.mask = r.pattern ↔ ∃ i, decode w = .ok i ∧ i.mnemonic = r.mnemonic) ∧
  (∀ w : Word, ∀ r ∈ opcodeMap, ∀ q ∈ opcodeMap, w &&& r.mask = r.pattern → w &&& q.mask = q.pattern → r = q) ∧
  (∀ i : Instr, (i.agent = .timer ↔ i.mnemonic = "TICK") ∧ (i.agent = .lineEnvironment ↔ i.mnemonic = "LINE") ∧
    (i.agent = .interruptUnit ↔ i.mnemonic = "DISP") ∧ (i.agent = .scanner ↔ i.mnemonic = "SCAN") ∧
    (i.agent = .host ↔ i.mnemonic ∈ ["ECFG", "EEN", "EDIS", "IRQOFF", "IRQON", "RD"]))

/-- Rules R72 and R79: decoding is total, and every operand is its field, unsigned and unscaled. -/
def Obligations.DecodeReadsEveryField : Prop :=
  ∀ w : Word,
    (decode w = .ok .tick ↔ w = 0x1000#16) ∧
    (∀ ln lv, decode w = .ok (.line ln lv) ↔ w &&& 0xFFEC#16 = 0x2000#16 ∧ ln = (w.extractLsb' 0 2).toNat ∧
      (lv = .high ↔ w.getLsbD 4 = true)) ∧
    (∀ ln kd, decode w = .ok (.ecfg ln kd) ↔ w &&& 0xFCFC#16 = 0x3000#16 ∧ ln = (w.extractLsb' 0 2).toNat ∧
      (kd = .lowLevel ↔ w.extractLsb' 8 2 = 0#2) ∧ (kd = .anyEdge ↔ w.extractLsb' 8 2 = 1#2) ∧
      (kd = .fallingEdge ↔ w.extractLsb' 8 2 = 2#2) ∧ (kd = .risingEdge ↔ w.extractLsb' 8 2 = 3#2)) ∧
    (∀ ln, decode w = .ok (.een ln) ↔ w &&& 0xFFFC#16 = 0x4000#16 ∧ ln = (w.extractLsb' 0 2).toNat) ∧
    (∀ ln, decode w = .ok (.edis ln) ↔ w &&& 0xFFFC#16 = 0x5000#16 ∧ ln = (w.extractLsb' 0 2).toNat) ∧
    (decode w = .ok .irqoff ↔ w = 0x6000#16) ∧
    (decode w = .ok .irqon ↔ w = 0x7000#16) ∧
    (decode w = .ok .disp ↔ w = 0x8000#16) ∧
    (decode w = .ok .scan ↔ w = 0x9000#16) ∧
    (∀ ad, decode w = .ok (.rd ad) ↔ w &&& 0xFFF0#16 = 0xA000#16 ∧ ad = (w.extractLsb' 0 4).toNat)

/-- Decoding an encoded well-formed command gives it back: no operand bit is dropped. -/
def Obligations.DecodeOfEncode : Prop := ∀ i : Instr, i.wf = true → decode (encode i) = .ok i

/-- Every word has one meaning: a word that decodes is the encoding of what it decodes to, a well-formed command. -/
def Obligations.EncodeOfDecode : Prop :=
  ∀ (w : Word) (i : Instr), decode w = .ok i → i.wf = true ∧ encode i = w

/-- Words written out from the spec's encodings (95_test_vectors.md L2.3, L2.7) decode to their commands. -/
def Obligations.WordsOfTheSpecDecode : Prop :=
  decode 0b0001000000000000#16 = .ok .tick ∧ decode 0b0010000000010011#16 = .ok (.line 3 .high) ∧
  decode 0b0010000000000001#16 = .ok (.line 1 .low) ∧ decode 0b0011001100000010#16 = .ok (.ecfg 2 .risingEdge) ∧
  decode 0b0011000100000000#16 = .ok (.ecfg 0 .anyEdge) ∧ decode 0b0100000000000011#16 = .ok (.een 3) ∧
  decode 0b0101000000000001#16 = .ok (.edis 1) ∧ decode 0b0110000000000000#16 = .ok .irqoff ∧
  decode 0b0111000000000000#16 = .ok .irqon ∧ decode 0b1000000000000000#16 = .ok .disp ∧
  decode 0b1001000000000000#16 = .ok .scan ∧ decode 0b1010000000001011#16 = .ok (.rd 0xB)

/-- Rule R76: a word that names a line or a kind the block lacks is a valid command that changes no state. -/
def Obligations.OutOfRangeIdentifiersChangeNothing : Prop :=
  (∀ (s : State) (lv : LineLevel) (kd : TriggerKind),
    exec (.line 3 lv) s = .next s ∧ exec (.ecfg 3 kd) s = .next s ∧ exec (.een 3) s = .next s ∧
    exec (.edis 3) s = .next s ∧ exec (.ecfg 2 .lowLevel) s = .next s ∧ exec (.ecfg 2 .anyEdge) s = .next s) ∧
  (∀ lv kd, (∃ w, decode w = .ok (.line 3 lv)) ∧ (∃ w, decode w = .ok (.ecfg 3 kd))) ∧
  (∃ w, decode w = .ok (.een 3)) ∧ (∃ w, decode w = .ok (.edis 3)) ∧
  (∃ w, decode w = .ok (.ecfg 2 .lowLevel)) ∧ (∃ w, decode w = .ok (.ecfg 2 .anyEdge))

/-- Rule R80: the line of assembler text printed for a well-formed command is read back as that command (the layout of
the text is the model's choice, log 16). -/
def Obligations.AssembledLineIsTheCommand : Prop :=
  ∀ i : Instr, i.wf = true → assembleLine (showInstr i).toList = some i

/-! ### The clock counter and the timer gate -/

/-- Rule R90: a tick sets its latch, or the overrun flag if the latch is full, while Running, and is ignored while
Paused; only 0x1000 is the word. -/
def Obligations.TickLatchesOrIsIgnored : Prop :=
  (∀ s : State,
    (s.gate = .running → s.tickPend = false → exec .tick s = .next { s with tickPend := true }) ∧
    (s.gate = .running → s.tickPend = true → exec .tick s = .next { s with tickOvr := true }) ∧
    (s.gate = .paused → exec .tick s = .next s)) ∧
  (∀ w : Word, w.extractLsb' 12 4 = 1#4 → decode w = if w = 0x1000#16 then .ok .tick else .error (.mustBeZero 1))

/-- Rule R91: the successor of a ClockValue, its carries and its range. The last clause, the closed form over the seconds of
the day, is the spec's own inference, marked derived in rule R91. -/
def Obligations.AdvanceIsOneSecondModuloADay : Prop :=
  ∀ c : ClockValue, c.sec.toNat ≤ 59 → c.min.toNat ≤ 59 → c.hour.toNat ≤ 23 →
    let d := advanceValue c
    (c.sec.toNat < 59 → d.sec.toNat = c.sec.toNat + 1 ∧ d.min = c.min ∧ d.hour = c.hour) ∧
    (c.sec.toNat = 59 → c.min.toNat < 59 → d.sec = 0 ∧ d.min.toNat = c.min.toNat + 1 ∧ d.hour = c.hour) ∧
    (c.sec.toNat = 59 → c.min.toNat = 59 → c.hour.toNat < 23 →
      d.sec = 0 ∧ d.min = 0 ∧ d.hour.toNat = c.hour.toNat + 1) ∧
    (c.sec.toNat = 59 → c.min.toNat = 59 → c.hour.toNat = 23 → d.sec = 0 ∧ d.min = 0 ∧ d.hour = 0) ∧
    d.sec.toNat ≤ 59 ∧ d.min.toNat ≤ 59 ∧ d.hour.toNat ≤ 23 ∧
    3600 * d.hour.toNat + 60 * d.min.toNat + d.sec.toNat =
      (3600 * c.hour.toNat + 60 * c.min.toNat + c.sec.toNat + 1) % 86400

/-- Rule R93 through `DISP`: servicing the Reset line zeroes the clock whatever `GATE` holds, discards a latched tick and
its own latch and nothing else, and is idempotent. -/
def Obligations.ResetHandlerZeroesTheClock : Prop :=
  (∀ s : State, s.ie = true → requestLine s .l0 = true →
    exec .disp s = .next { s with
      pend := { s.pend with l0 := false }, clock := { sec := 0, min := 0, hour := 0 }, tickPend := false }) ∧
  (∀ s : State, service (.line .l0) (service (.line .l0) s) = service (.line .l0) s) ∧
  (∀ (i : Instr) (s t : State), exec i s = .next t → t.clock ≠ s.clock → i = .disp)

/-- Rule R110 through `DISP`: servicing the Pause line pauses and discards a latched tick; while Paused it changes its own
latch only. -/
def Obligations.PauseHandlerStopsTheTicks : Prop :=
  (∀ s : State, s.ie = true → requestLine s .l0 = false → requestLine s .l1 = true →
    exec .disp s = .next { s with pend := { s.pend with l1 := false }, gate := .paused, tickPend := false } ∧
    (s.gate = .paused → BlockInv s → exec .disp s = .next { s with pend := { s.pend with l1 := false } })) ∧
  (∀ (i : Instr) (s t : State), exec i s = .next t → t.gate ≠ s.gate → i = .disp)

/-- Rule R111 through `DISP`: servicing the Resume line runs with the timer configuration of initialization. That
while Running it changes its own latch only is the spec's own inference, marked derived in rule R111. -/
def Obligations.ResumeHandlerRestoresTheConfiguration : Prop :=
  (∀ s : State, s.ie = true → requestLine s .l0 = false → requestLine s .l1 = false → requestLine s .l2 = true →
    exec .disp s = .next { s with
      pend := { s.pend with l2 := false }, gate := .running,
      tcfg := { tinit := Config.initTinit, tcmp := 1000#16, tpre := Config.initTpre, tmode := Config.initTmode } } ∧
    (s.gate = .running → BlockInv s → exec .disp s = .next { s with pend := { s.pend with l2 := false } })) ∧
  (∀ (i : Instr) (s t : State), exec i s = .next t → t.gate ≠ s.gate ∨ t.tcfg ≠ s.tcfg → i = .disp)

/-- Rule R92 through `DISP`: servicing the tick clears its latch and writes the successor of the clock, whatever
`GATE` holds. That the successor is one second later modulo 24 hours is the closed form of rule R91, the spec's own
inference, marked derived there; that it is legal is rule R91's range. -/
def Obligations.TickHandlerAdvancesTheClock : Prop :=
  (∀ s : State, s.ie = true → noLineRequest s → s.tickPend = true → s.clock.valid = true →
    ∃ c, exec .disp s = .next { s with tickPend := false, clock := c } ∧ c = advanceValue s.clock ∧
      c.valid = true ∧ secondsOfDay c = (secondsOfDay s.clock + 1) % 86400) ∧
  (∀ (i : Instr) (s t : State), exec i s = .next t → t.clock ≠ s.clock → i = .disp)

/-- Rule R112: the gate changes only when `DISP` services the Pause line while Running or the Resume line while Paused,
and Pause while Paused and Resume while Running change no register but the serviced latch. -/
def Obligations.GateStateMachine : Prop :=
  (∀ (i : Instr) (s t : State), exec i s = .next t → t.gate ≠ s.gate →
    i = .disp ∧ s.ie = true ∧
    ((s.gate = .running ∧ t.gate = .paused ∧ selectSource s = some (.line .l1)) ∨
     (s.gate = .paused ∧ t.gate = .running ∧ selectSource s = some (.line .l2)))) ∧
  (∀ s : State, BlockInv s → s.gate = .paused → service (.line .l1) s = s.setPend .l1 false) ∧
  (∀ s : State, BlockInv s → s.gate = .running → service (.line .l2) s = s.setPend .l2 false)

/-- Rule R94 (which the spec marks derived), the counting law, over steps of the machine: from midnight, Running, with
no request, `n` `SECOND` pairs leave the clock at `n` seconds modulo 24 hours and every other register as it was. The pairs
are the words on the port, the model's own field (log 1). -/
def Obligations.CountingLaw : Prop :=
  ∀ (n : Nat) (s : State), s.clock = { sec := 0, min := 0, hour := 0 } → s.gate = .running → s.tickPend = false →
    s.ie = true → noLineRequest s → s.refused = false → s.port = wordsOf (repeatBlock n pseudoSecond) →
    ∃ t : State, Host.Core.run Sys2Proof.core (2 * n) s = .next t ∧ t.clock.hour.toNat = n % 86400 / 3600 ∧
      t.clock.min.toNat = n % 86400 / 60 % 60 ∧ t.clock.sec.toNat = n % 86400 % 60 ∧
      t = { s with port := [], clock := t.clock }

/-- Rule R115 (which the spec marks derived), the Pause and Resume law: `k` seconds, a serviced Pause, any `TICK` and
`DISP` words with no Reset or Resume request, a serviced Resume and `m` seconds give the ClockValue of `k + m` seconds. The
Pause line may be pressed again, or go on requesting, while Paused. The presses of the serviced Pause and Resume are any
`LINE` words after which the line is the source serviced. -/
def Obligations.PauseResumeLaw : Prop :=
  ∀ (s v x : State) (k m : Nat) (pausing paused resuming : List Instr),
    s.gate = .running → s.tickPend = false → s.ie = true → noLineRequest s →
    (∀ i ∈ pausing, ∃ ln lv, i = .line ln lv) → (∀ i ∈ paused, i = .tick ∨ i = .disp ∨ ∃ lv, i = .line 1 lv) →
    (∀ i ∈ resuming, ∃ ln lv, i = .line ln lv) →
    execAll (repeatBlock k pseudoSecond ++ pausing) s = .next v →
    selectSource v = some (.line .l1) → requestLine (service (.line .l1) v) .l0 = false →
    requestLine (service (.line .l1) v) .l2 = false →
    execAll (paused ++ resuming) (service (.line .l1) v) = .next x →
    selectSource x = some (.line .l2) → noLineRequest (service (.line .l2) x) →
    ∃ t u : State,
      execAll (repeatBlock k pseudoSecond ++ pausing ++ [.disp] ++ paused ++ resuming ++ [.disp] ++
        repeatBlock m pseudoSecond) s = .next t ∧
      execAll (repeatBlock (k + m) pseudoSecond) s = .next u ∧ t.clock = u.clock

/-- Rule R246: a `TICK` while Paused changes nothing; a tick latched when the Pause line is serviced is discarded; and
however many ticks come and `DISP` words run while Paused with no line requesting, none is delivered, after the Resume
either. -/
def Obligations.PausedTicksAreIgnored : Prop :=
  (∀ s : State, s.gate = .paused → exec .tick s = .next s) ∧
  (∀ s : State, (service (.line .l1) s).tickPend = false ∧ (service (.line .l1) s).clock = s.clock) ∧
  (∀ (s : State) (is : List Instr), s.gate = .paused → s.tickPend = false → noLineRequest s →
    (∀ i ∈ is, i = .tick ∨ i = .disp) →
    ∃ t, execAll is s = .next t ∧ t = s ∧ (service (.line .l2) t).tickPend = false ∧
      (service (.line .l2) t).clock = s.clock)

/-- Rule R113 and item I1: the ticks a source running on while Paused would issue change nothing, so gate strategies (a)
and (b) reach the same states. -/
def Obligations.GateStrategiesAgree : Prop :=
  ∀ (is : List Instr) (s : State), execAll is s = execAll (withoutPausedTicks is s) s

/-! ### The edge lines -/

/-- Rule R132: a sample is recorded, and sets the line's latch exactly when the line is armed and the sample is an edge of
its kind; a word with a must-be-zero bit set is refused. -/
def Obligations.LineSampleSetsTheLatchOnItsEdge : Prop :=
  (∀ (s : State) (ln : Nat) (i : LineId) (lv : LineLevel), lineOf ln = some i →
    exec (.line ln lv) s = .next { s with
      last := s.last.set i lv
      pend := if s.en.get i = true ∧
          ((kindOf s i = .anyEdge ∧ lv ≠ s.last.get i) ∨
           (kindOf s i = .fallingEdge ∧ s.last.get i = .high ∧ lv = .low) ∨
           (kindOf s i = .risingEdge ∧ s.last.get i = .low ∧ lv = .high))
        then s.pend.set i true else s.pend }) ∧
  (∀ (s : State) (lv : LineLevel), exec (.line 3 lv) s = .next s) ∧
  (∀ w : Word, w.extractLsb' 12 4 = 2#4 →
    decode w = if w &&& 0xFFEC#16 = 0x2000#16
      then .ok (.line (w.extractLsb' 0 2).toNat (if w.getLsbD 4 then .high else .low)) else .error (.mustBeZero 2)) ∧
  (∀ w : Word, w.extractLsb' 12 4 = 2#4 → (w.extractLsb' 5 7 ≠ 0#7 ∨ w.extractLsb' 2 2 ≠ 0#2) →
    decode w = .error (.mustBeZero 2))

/-- Rule R133: the kind is written on lines 0 and 1, on line 2 only FallingEdge and RisingEdge are, and nothing else
changes. -/
def Obligations.TriggerKindIsWritten : Prop :=
  (∀ (s : State) (kd : TriggerKind),
    exec (.ecfg 0 kd) s = .next { s with sense0 := kd } ∧ exec (.ecfg 1 kd) s = .next { s with sense1 := kd } ∧
    exec (.ecfg 2 .lowLevel) s = .next s ∧ exec (.ecfg 2 .anyEdge) s = .next s ∧
    exec (.ecfg 2 .fallingEdge) s = .next { s with sense2 := .falling } ∧
    exec (.ecfg 2 .risingEdge) s = .next { s with sense2 := .rising } ∧ exec (.ecfg 3 kd) s = .next s) ∧
  (∀ w : Word, w.extractLsb' 12 4 = 3#4 →
    decode w = if w &&& 0xFCFC#16 = 0x3000#16
      then .ok (.ecfg (w.extractLsb' 0 2).toNat (kindOfCode (w.extractLsb' 8 2).toNat)) else .error (.mustBeZero 3)) ∧
  (∀ w : Word, w.extractLsb' 12 4 = 3#4 → (w.extractLsb' 10 2 ≠ 0#2 ∨ w.extractLsb' 2 6 ≠ 0#6) →
    decode w = .error (.mustBeZero 3))

/-- Rule R134: arming a line sets its enable and nothing else; a LowLevel line whose last level is Low then requests. -/
def Obligations.ArmingSetsNoLatch : Prop :=
  (∀ (s : State) (ln : Nat) (i : LineId), lineOf ln = some i →
    ∃ t, exec (.een ln) s = .next t ∧ t = { s with en := s.en.set i true } ∧
      (kindOf s i = .lowLevel → s.last.get i = .low → requestLine t i = true)) ∧
  (∀ s : State, exec (.een 3) s = .next s) ∧
  (∀ w : Word, w.extractLsb' 12 4 = 4#4 →
    decode w = if w &&& 0xFFFC#16 = 0x4000#16 then .ok (.een (w.extractLsb' 0 2).toNat) else .error (.mustBeZero 4)) ∧
  (∀ w : Word, w.extractLsb' 12 4 = 4#4 → w.extractLsb' 2 10 ≠ 0#10 → decode w = .error (.mustBeZero 4))

/-- Rule R135: disarming a line clears its enable and its latch and nothing else; it then requests nothing. -/
def Obligations.DisarmingDiscardsTheLatch : Prop :=
  (∀ (s : State) (ln : Nat) (i : LineId), lineOf ln = some i →
    ∃ t, exec (.edis ln) s = .next t ∧ t = { s with en := s.en.set i false, pend := s.pend.set i false } ∧
      requestLine t i = false) ∧
  (∀ s : State, exec (.edis 3) s = .next s) ∧
  (∀ w : Word, w.extractLsb' 12 4 = 5#4 →
    decode w = if w &&& 0xFFFC#16 = 0x5000#16 then .ok (.edis (w.extractLsb' 0 2).toNat) else .error (.mustBeZero 5)) ∧
  (∀ w : Word, w.extractLsb' 12 4 = 5#4 → w.extractLsb' 2 10 ≠ 0#10 → decode w = .error (.mustBeZero 5))

/-- Rule R137 (which the spec marks derived), the edge table: for an armed line with no latch set, which samples set
it, and for LowLevel which samples request. -/
def Obligations.EdgeTable : Prop :=
  ∀ (s t : State) (ln : Nat) (i : LineId) (lv : LineLevel), lineOf ln = some i → s.en.get i = true →
    s.pend.get i = false → exec (.line ln lv) s = .next t →
    (kindOf s i = .lowLevel → t.pend.get i = false ∧ (requestLine t i = true ↔ lv = .low)) ∧
    (kindOf s i = .anyEdge → (t.pend.get i = true ↔
      (s.last.get i, lv) = (.high, .low) ∨ (s.last.get i, lv) = (.low, .high))) ∧
    (kindOf s i = .fallingEdge → (t.pend.get i = true ↔ (s.last.get i, lv) = (.high, .low))) ∧
    (kindOf s i = .risingEdge → (t.pend.get i = true ↔ (s.last.get i, lv) = (.low, .high)))

/-- Rule R251: edges made while a line is disarmed, and an edge latched before, are not delivered by arming it again. -/
def Obligations.EdgesWhileDisarmedAreLost : Prop :=
  ∀ (s : State) (ln : Nat) (i : LineId) (samples : List LineLevel), lineOf ln = some i →
    ∃ t : State, execAll ([.edis ln] ++ samples.map (fun lv => .line ln lv) ++ [.een ln]) s = .next t ∧
      t.pend.get i = false ∧ t.en.get i = true ∧ t.last.get i = samples.getLastD (s.last.get i) ∧
      (kindOf s i ≠ .lowLevel → requestLine t i = false)

/-- Rules R136 and R248, under their premise that each press presents one `PRESS` pair, and rule R132's merged edges: the
presses of an armed idle-high FallingEdge button, however many before a `DISP`, end idle with its one latch set, and no
press sets none. -/
def Obligations.CleanPressesMergeIntoOneRequest : Prop :=
  ∀ (s : State) (ln : Nat) (i : LineId) (is : List Instr), lineOf ln = some i → s.en.get i = true →
    kindOf s i = .fallingEdge → s.last.get i = .high → noBounce is → (∀ c ∈ is, ∃ lv, c = .line ln lv) →
    execAll is s = .next { s with pend := if is = [] then s.pend else s.pend.set i true }

/-! ### Interrupts -/

/-- Rules R150 and R151: with `IE = 1`, `DISP` services the one requesting source of highest priority, Reset, Pause,
Resume, tick; with `IE = 0` or no request it changes nothing. -/
def Obligations.DispatchServicesTheFirstRequest : Prop :=
  (∀ s : State,
    (s.ie = false → exec .disp s = .next s) ∧
    (s.ie = true → requestLine s .l0 = true →
      exec .disp s = .next (handlerClkReset { s with pend := s.pend.set .l0 false })) ∧
    (s.ie = true → requestLine s .l0 = false → requestLine s .l1 = true →
      exec .disp s = .next (handlerGateOff { s with pend := s.pend.set .l1 false })) ∧
    (s.ie = true → requestLine s .l0 = false → requestLine s .l1 = false → requestLine s .l2 = true →
      exec .disp s = .next (handlerGateOn { s with pend := s.pend.set .l2 false })) ∧
    (s.ie = true → noLineRequest s → s.tickPend = true →
      exec .disp s = .next (handlerAdvance { s with tickPend := false })) ∧
    (s.ie = true → noLineRequest s → s.tickPend = false → exec .disp s = .next s)) ∧
  (∀ s : State, selectSource s =
    if requestLine s .l0 = true then some (.line .l0) else if requestLine s .l1 = true then some (.line .l1)
    else if requestLine s .l2 = true then some (.line .l2) else if s.tickPend = true then some .tick else none) ∧
  (∀ w : Word, w.extractLsb' 12 4 = 8#4 → decode w = if w = 0x8000#16 then .ok .disp else .error (.mustBeZero 8))

/-- Rules R152 and R153: `IRQOFF` and `IRQON` write the global enable and nothing else. -/
def Obligations.MaskCommandsWriteOnlyTheEnable : Prop :=
  (∀ s : State, exec .irqoff s = .next { s with ie := false } ∧ exec .irqon s = .next { s with ie := true }) ∧
  (∀ w : Word, w.extractLsb' 12 4 = 6#4 → decode w = if w = 0x6000#16 then .ok .irqoff else .error (.mustBeZero 6)) ∧
  (∀ w : Word, w.extractLsb' 12 4 = 7#4 → decode w = if w = 0x7000#16 then .ok .irqon else .error (.mustBeZero 7))

/-- Rule R57(b): from `IE = 0` until an `IRQON`, whatever words the agents present, no handler runs: the clock, the
gate and the timer configuration keep one value, and no latch is cleared but by `EDIS`. -/
def Obligations.MaskedBlockRunsNoHandler : Prop :=
  ∀ (s t : State) (is : List Instr), s.ie = false → .irqon ∉ is → execAll is s = .next t →
    t.clock = s.clock ∧ t.gate = s.gate ∧ t.tcfg = s.tcfg ∧ (s.tickPend = true → t.tickPend = true) ∧
    (∀ i, s.pend.get i = true → (∀ ln, lineOf ln = some i → .edis ln ∉ is) → t.pend.get i = true)

/-- Rule R214 (which the spec marks derived): a command raises at most one latch, and `DISP` raises none and runs at most
one handler. -/
def Obligations.AtMostOneLatchRises : Prop :=
  ∀ (i : Instr) (s t : State), exec i s = .next t →
    (s.tickPend = false → t.tickPend = true → i = .tick ∧ t.pend = s.pend) ∧
    (∀ j, s.pend.get j = false → t.pend.get j = true →
      (∃ ln lv, i = .line ln lv ∧ lineOf ln = some j) ∧ t.tickPend = s.tickPend ∧
      ∀ k, k ≠ j → t.pend.get k = s.pend.get k) ∧
    (i = .disp → t = s ∨ ∃ src, t = service src s)

/-- Rule R215: a handler's step leaves the scanner, the read register, the enable and the line configuration alone, so the
preempted agent goes on where it was. -/
def Obligations.HandlersReturnToThePreemptedAgent : Prop :=
  ∀ (src : Source) (s : State),
    let t := service src s
    t.pos = s.pos ∧ t.sel = s.sel ∧ t.bcd = s.bcd ∧ t.vis = s.vis ∧ t.rdata = s.rdata ∧ t.ie = s.ie ∧ t.en = s.en ∧
    t.last = s.last ∧ (∀ i, kindOf t i = kindOf s i) ∧ t.tickOvr = s.tickOvr ∧ t.port = s.port ∧
    exec .scan t = .next { t with
      sel := 1#6 <<< posNumber s.pos, bcd := digitAt t.clock s.pos,
      vis := s.vis.set s.pos (digitAt t.clock s.pos), pos := nextPos s.pos }

/-- Rule R245: a latched tick cannot un-zero the clock at a reset, whichever of the Reset line and the tick is serviced
first. -/
def Obligations.ResetBeatsATickInFlight : Prop :=
  ∀ s : State,
    (let t := service (.line .l0) s
     t.clock = { sec := 0, min := 0, hour := 0 } ∧ t.tickPend = false ∧ selectSource t ≠ some .tick) ∧
    (let t := service (.line .l0) (service .tick s)
     t.clock = { sec := 0, min := 0, hour := 0 } ∧ t.tickPend = false ∧ selectSource t ≠ some .tick)

/-- Rule R213(a) and (b): Pause and a tick pending together end Paused with the tick uncounted; Pause and Resume pending
together through their latches end Running. The order is the spec's decision D13 (log 12). -/
def Obligations.PriorityDecidesTwoRaces : Prop :=
  (∀ s : State, s.ie = true → requestLine s .l0 = false → s.en.l1 = true → s.pend.l1 = true →
    ¬(s.sense1 = .lowLevel ∧ s.last.l1 = .low) → requestLine s .l2 = false → s.tickPend = true →
    ∃ t, execAll [.disp, .disp] s = .next t ∧ t.gate = .paused ∧ t.clock = s.clock ∧ t.tickPend = false) ∧
  (∀ s : State, s.ie = true → requestLine s .l0 = false → s.en.l1 = true → s.pend.l1 = true →
    ¬(s.sense1 = .lowLevel ∧ s.last.l1 = .low) → s.en.l2 = true → s.pend.l2 = true →
    ∃ t, execAll [.disp, .disp] s = .next t ∧ t.gate = .running ∧ t.pend.l1 = false ∧ t.pend.l2 = false)

/-- Rule R250: while an armed LowLevel line is held Low, no `DISP` ever services the tick: over any commands that leave
that line and the trigger kinds alone, the clock never advances. -/
def Obligations.HeldLowLineStarvesTheTick : Prop :=
  ∀ (s t : State) (held : LineId) (is : List Instr),
    s.en.get held = true → kindOf s held = .lowLevel → s.last.get held = .low →
    (∀ i ∈ is, ∀ ln lv kd, lineOf ln = some held → i ≠ .line ln lv ∧ i ≠ .ecfg ln kd ∧ i ≠ .edis ln) →
    execAll is s = .next t →
    (t.clock = s.clock ∨ t.clock = { sec := 0, min := 0, hour := 0 }) ∧ requestLine t held = true ∧
      selectSource t ≠ some .tick ∧ (t.ie = true → ∃ j, selectSource t = some (.line j))

/-- Rules R22 to R40, their "written only by" sentences: each register changes only at the commands that write it. -/
def Obligations.OnlyTheirWritersChangeRegisters : Prop :=
  ∀ (i : Instr) (s t : State), exec i s = .next t →
    (t.clock ≠ s.clock → i = .disp ∧ (selectSource s = some .tick ∨ selectSource s = some (.line .l0))) ∧
    (t.gate ≠ s.gate → i = .disp ∧ (selectSource s = some (.line .l1) ∨ selectSource s = some (.line .l2))) ∧
    (t.tcfg ≠ s.tcfg → i = .disp ∧ selectSource s = some (.line .l2)) ∧
    (t.tickPend ≠ s.tickPend → i = .tick ∨ i = .disp) ∧
    (t.tickOvr ≠ s.tickOvr → i = .tick ∧ t.tickOvr = true) ∧
    (t.ie ≠ s.ie → i = .irqoff ∨ i = .irqon) ∧
    (t.en ≠ s.en → ∃ ln, i = .een ln ∨ i = .edis ln) ∧
    ((∃ j, kindOf t j ≠ kindOf s j) → ∃ ln kd, i = .ecfg ln kd) ∧
    (t.pend ≠ s.pend → i = .disp ∨ ∃ ln, i = .edis ln ∨ ∃ lv, i = .line ln lv) ∧
    (t.last ≠ s.last → ∃ ln lv, i = .line ln lv) ∧
    (t.pos ≠ s.pos ∨ t.sel ≠ s.sel ∨ t.bcd ≠ s.bcd ∨ t.vis ≠ s.vis → i = .scan) ∧
    (t.rdata ≠ s.rdata → ∃ ad, i = .rd ad) ∧
    t.refused = s.refused

/-- Rules R51, R54 and R55: over any interleaving of the words of the timer, the line environment, the scanner and the
host, the ClockValue and the gate keep their values; only the interrupt unit's words can change them. -/
def Obligations.OnlyTheInterruptUnitChangesClockAndGate : Prop :=
  ∀ (s t : State) (is : List Instr), (∀ i ∈ is, i.agent ≠ .interruptUnit) → execAll is s = .next t →
    t.clock = s.clock ∧ t.gate = s.gate ∧ t.tcfg = s.tcfg

/-! ### The scanner -/

/-- Rules R170 and R252: a visit selects exactly the position it drives, drives its digit, records it in the visible
frame and moves to the next position round-robin. -/
def Obligations.ScanVisitsOnePosition : Prop :=
  (∀ s : State, ∃ t, exec .scan s = .next t ∧
    t = { s with pos := t.pos, sel := t.sel, bcd := t.bcd, vis := t.vis } ∧
    posNumber t.pos = (posNumber s.pos + 1) % 6 ∧
    (∀ p, t.sel.getLsbD (posNumber p) = true ↔ p = s.pos) ∧
    t.bcd = digitAt s.clock s.pos ∧ t.vis.get s.pos = digitAt s.clock s.pos ∧
    (∀ p, p ≠ s.pos → t.vis.get p = s.vis.get p)) ∧
  (∀ w : Word, w.extractLsb' 12 4 = 9#4 → decode w = if w = 0x9000#16 then .ok .scan else .error (.mustBeZero 9))

/-- Rule R171: the digit shown at each position. The ranges on every valid clock are the spec's own inference, marked derived
in rule R171. -/
def Obligations.DigitOfEachPosition : Prop :=
  ∀ c : ClockValue, c.valid = true →
    (digitAt c .secondsOnes).toNat = c.sec.toNat % 10 ∧ (digitAt c .secondsTens).toNat = c.sec.toNat / 10 ∧
    (digitAt c .minutesOnes).toNat = c.min.toNat % 10 ∧ (digitAt c .minutesTens).toNat = c.min.toNat / 10 ∧
    (digitAt c .hoursOnes).toNat = c.hour.toNat % 10 ∧ (digitAt c .hoursTens).toNat = c.hour.toNat / 10 ∧
    (∀ p, (digitAt c p).toNat ≤ 9) ∧ (digitAt c .secondsTens).toNat ≤ 5 ∧ (digitAt c .minutesTens).toNat ≤ 5 ∧
    (digitAt c .hoursTens).toNat ≤ 2

/-- Rule R173 (which the spec marks derived): visits from position 0 with no clock change among them drive, in order,
the digits of the ClockValue, and six of them leave its DisplayFrame visible; any other commands may fall between. -/
def Obligations.FrameProjectsTheClock : Prop :=
  ∀ (s t : State) (is : List Instr), s.pos = .secondsOnes → is.count .scan ≤ 6 →
    (∀ js, js <+: is → ∀ u, execAll js s = .next u → u.clock = s.clock) → execAll is s = .next t →
    (∀ p, posNumber p < is.count .scan → t.vis.get p = digitAt s.clock p) ∧
    (∀ p, is.count .scan ≤ posNumber p → t.vis.get p = s.vis.get p) ∧
    (∀ p, posNumber p + 1 = is.count .scan → t.bcd = digitAt s.clock p ∧ t.sel = onehot6 p) ∧
    (is.count .scan = 6 → t.vis = displayFrame s.clock ∧ t.pos = .secondsOnes)

/-- Rule R174: a `DISP` between two visits of one frame tears it: the positions visited before it show the old ClockValue,
those visited after it the new one. -/
def Obligations.TornFrameMixesTwoClocks : Prop :=
  ∀ (s t : State) (before after : List Instr), s.pos = .secondsOnes → .disp ∉ before → .disp ∉ after →
    before.count .scan + after.count .scan = 6 → execAll (before ++ [.disp] ++ after) s = .next t →
    ∀ p, (posNumber p < before.count .scan → t.vis.get p = digitAt s.clock p) ∧
      (before.count .scan ≤ posNumber p → t.vis.get p = digitAt t.clock p)

/-- Rules R56 and R174: whatever the display shows, it is the DisplayFrame of the clock again once every position has been
visited with the clock unchanged. -/
def Obligations.TornFrameHeals : Prop :=
  ∀ (s t : State) (is : List Instr), 6 ≤ is.count .scan →
    (∀ js, js <+: is → ∀ u, execAll js s = .next u → u.clock = s.clock) → execAll is s = .next t →
    t.vis = displayFrame t.clock

/-! ### The read port -/

/-- Rules R190, R191 and R192: `RD` writes `RDATA` with the word of the read-space map, field by field and zero elsewhere,
and changes nothing else. The map's reset column, with the spec's default parameters, is the spec's own inference from
rule R42, marked derived in rule R191. -/
def Obligations.ReadSpaceMap : Prop :=
  (∀ (s : State) (ad : Nat), ∃ v, exec (.rd ad) s = .next { s with rdata := v } ∧
    (ad = 0x0 → v.toNat = s.clock.sec.toNat) ∧
    (ad = 0x1 → v.toNat = s.clock.min.toNat) ∧
    (ad = 0x2 → v.toNat = s.clock.hour.toNat) ∧
    (ad = 0x3 → v.toNat = s.clock.hour.toNat * 2 ^ 16 + s.clock.min.toNat * 2 ^ 8 + s.clock.sec.toNat) ∧
    (ad = 0x4 → v.toNat = (if s.gate = .running then 1 else 0) + s.ie.toNat * 2 + s.tickPend.toNat * 4 +
      s.tickOvr.toNat * 8 + (requestLine s .l0).toNat * 16 + (requestLine s .l1).toNat * 32 +
      (requestLine s .l2).toNat * 64 + (requestTick s).toNat * 128) ∧
    (ad = 0x5 → v.toNat = s.en.l0.toNat + s.en.l1.toNat * 2 + s.en.l2.toNat * 4 +
      s.pend.l0.toNat * 16 + s.pend.l1.toNat * 32 + s.pend.l2.toNat * 64 +
      levelCode s.last.l0 * 256 + levelCode s.last.l1 * 512 + levelCode s.last.l2 * 1024) ∧
    (ad = 0x6 → v.toNat = kindCode s.sense0 + kindCode s.sense1 * 4 + edgeCode s.sense2 * 16) ∧
    (ad = 0x7 → v.toNat = posNumber s.pos + s.sel.toNat * 2 ^ 8 + s.bcd.toNat * 2 ^ 16) ∧
    (ad = 0x8 → v.toNat = s.vis.p0.toNat + s.vis.p1.toNat * 2 ^ 4 + s.vis.p2.toNat * 2 ^ 8 + s.vis.p3.toNat * 2 ^ 12 +
      s.vis.p4.toNat * 2 ^ 16 + s.vis.p5.toNat * 2 ^ 20) ∧
    (ad = 0x9 → v.toNat = s.tcfg.tinit.toNat) ∧
    (ad = 0xA → v.toNat = s.tcfg.tcmp.toNat) ∧
    (ad = 0xB → v.toNat = s.tcfg.tmode.toNat * 2 ^ 16 + s.tcfg.tpre.toNat) ∧
    (0xC ≤ ad → ad ≤ 0xF → v = 0)) ∧
  (let s := State.resetWith Config.defaultReset
   (∀ ad, ad ≤ 0x3 → regRead s ad = 0) ∧ regRead s 0x4 = 0x00000003#32 ∧ regRead s 0x5 = 0x00000707#32 ∧
   regRead s 0x6 = 0x0000000A#32 ∧ regRead s 0x7 = 0 ∧ regRead s 0x8 = 0x00FFFFFF#32 ∧
   regRead s 0x9 = Config.initTinit.zeroExtend 32 ∧ regRead s 0xA = 0x000003E8#32 ∧
   regRead s 0xB = Config.initTmode ++ Config.initTpre ∧ (∀ ad, 0xC ≤ ad → ad ≤ 0xF → regRead s ad = 0)) ∧
  (∀ w : Word, w.extractLsb' 12 4 = 10#4 →
    decode w = if w &&& 0xFFF0#16 = 0xA000#16 then .ok (.rd (w.extractLsb' 0 4).toNat) else .error (.mustBeZero 10)) ∧
  (∀ w : Word, w.extractLsb' 12 4 = 10#4 → w.extractLsb' 4 8 ≠ 0#8 → decode w = .error (.mustBeZero 10))

/-- `State.reset` takes the default parameters of rule R7 (the model's choice, log 6): FallingEdge and High on every line. -/
def Obligations.ResetTakesTheDefaults : Prop :=
  State.reset = State.resetWith Config.defaultReset ∧ (∀ i, kindOf State.reset i = .fallingEdge) ∧
  (∀ i, State.reset.last.get i = .high)

/-- Rule R62(a): a read has no side effect: after it the whole read space reads as before, and the same read again changes
nothing. -/
def Obligations.ReadsHaveNoSideEffect : Prop :=
  ∀ (s t : State) (ad : Nat), exec (.rd ad) s = .next t →
    (∀ a, regRead t a = regRead s a) ∧ exec (.rd ad) t = .next t ∧ selectSource t = selectSource s

/-- Rule R60: a read word carried as bytes is little-endian. -/
def Obligations.ReadWordBytesAreLittleEndian : Prop :=
  ∀ v : ReadWord, v.toNat = (readByte v 0).toNat + (readByte v 1).toNat * 2 ^ 8 + (readByte v 2).toNat * 2 ^ 16 +
    (readByte v 3).toNat * 2 ^ 24

/-! ### Invariants and progress -/

/-- Rule R43: the invariants hold at reset, for every choice of the OPEN parameters. -/
def Obligations.ResetMeetsTheInvariants : Prop := ∀ p : ResetParams, BlockInv (State.resetWith p)

/-- Rule R43 (which the spec marks derived): every step keeps the invariants, from every state that meets them, the model's
idle and refused steps among them (logs 2 and 3). -/
def Obligations.StepKeepsTheInvariants : Prop := ∀ s t : State, BlockInv s → step s = .next t → BlockInv t

/-- Rule R43 (a) to (g), which the spec marks derived, over every state reachable from reset under every interleaving of the
words presented on the port (log 1). -/
def Obligations.ReachableStatesMeetRuleR43 : Prop :=
  ∀ (h : List (State × Instr)) (s : State), Reachable h s →
    (s.tickPend = true → s.gate = .running) ∧
    (∀ i, s.en.get i = false → s.pend.get i = false) ∧
    posNumber s.pos ≤ 5 ∧
    (s.sel = 0#6 ∨ s.sel = 1#6 <<< ((posNumber s.pos + 5) % 6)) ∧
    s.tcfg = Config.initCfg ∧
    (s.clock.sec.toNat ≤ 59 ∧ s.clock.min.toNat ≤ 59 ∧ s.clock.hour.toNat ≤ 23) ∧
    (∀ p, s.vis.get p = 0xF#4 → ¬visited h p)

/-- Rules R53(a), R36 and R170: in a meaningful run whose scanner never stops, every position is selected again and again. -/
def Obligations.EveryPositionIsVisitedForever : Prop :=
  ∀ (s : State) (words : Nat → Word), meaningfulRun s words → scannerProgress words →
    ∀ (n : Nat) (p : DigitPos), ∃ m u, n ≤ m ∧ stateAt s words m = some u ∧ u.sel = onehot6 p

/-- Rule R53(b): in a meaningful run with interrupt service, a Reset press that is latched, enabled and neither disarmed
nor masked from then on zeroes the clock at some later word. -/
def Obligations.LatchedResetIsServed : Prop :=
  ∀ (s : State) (words : Nat → Word), meaningfulRun s words → interruptService s words →
    ∀ (n : Nat) (u : State), stateAt s words n = some u → u.ie = true → u.en.l0 = true → u.pend.l0 = true →
      (∀ m, n ≤ m → words m ≠ encode .irqoff ∧ words m ≠ encode (.edis 0)) →
      ∃ m t, n < m ∧ stateAt s words m = some t ∧ t.clock = { sec := 0, min := 0, hour := 0 } ∧ t.pend.l0 = false

/-- Rules R53(c) and R247: where a `DISP` services every tick before the next, no tick is lost: `TICK_OVR` keeps its
value from a state with no tick latched. -/
def Obligations.NoOverrunNoLostTick : Prop :=
  ∀ (s : State) (words : Nat → Word), s.tickPend = false → noTickOverrun s words →
    ∀ (n : Nat) (u : State), stateAt s words n = some u → u.tickOvr = s.tickOvr
end

