-- ==== Sys2Proof/Laws/Decode.lean ====
section
/-! SUPPORT. The spec lemmas of the command formats: what a matched mask says of a word's bits. -/

namespace Sys2Proof

/-- The mask of a command without operands keeps every bit. -/
theorem and_full_mask (w : Word) : w &&& 0xFFFF#16 = w := by
  rw [show 0xFFFF#16 = BitVec.allOnes 16 from rfl, BitVec.and_allOnes]

/-- A matched mask, bit by bit. -/
theorem bit_of_match {w m p : Word} (h : w &&& m = p) (i : Nat) :
    (w.getLsbD i && m.getLsbD i) = p.getLsbD i := by
  rw [← h, BitVec.getLsbD_and]

/-- A mask that covers the opcode field gives a matching word the pattern's opcode. -/
theorem opField_of_match {w m p : Word} (h : w &&& m = p) (hm : m.extractLsb' 12 4 = 15#4) :
    opField w = opField p := by
  have hb : ∀ i < 4, (w.extractLsb' 12 4).getLsbD i = (p.extractLsb' 12 4).getLsbD i := by
    intro i hi
    have hmi : m.getLsbD (12 + i) = true := by
      have : (m.extractLsb' 12 4).getLsbD i = true := by
        rw [hm]
        interval_cases i <;> rfl
      simpa [hi] using this
    have := bit_of_match h (12 + i)
    simp only [hmi, Bool.and_true] at this
    simp [hi, this]
  simp only [opField, fieldOf, BitVec.eq_of_getLsbD_eq hb]

/-- A word of the line formats is its pattern and its line number. -/
theorem eq_of_match_L {w p : Word} (h : w &&& 0xFFFC#16 = p) : w = p ||| (w.extractLsb' 0 2).setWidth 16 := by
  apply BitVec.eq_of_getLsbD_eq
  intro i hi
  have := bit_of_match h i
  interval_cases i <;> simp_all

/-- A word of the read format is its pattern and its address. -/
theorem eq_of_match_A {w p : Word} (h : w &&& 0xFFF0#16 = p) : w = p ||| (w.extractLsb' 0 4).setWidth 16 := by
  apply BitVec.eq_of_getLsbD_eq
  intro i hi
  have := bit_of_match h i
  interval_cases i <;> simp_all

/-- A word of the sample format is its pattern, its level and its line number. -/
theorem eq_of_match_LV {w p : Word} (h : w &&& 0xFFEC#16 = p) :
    w = p ||| ((w.extractLsb' 4 1).setWidth 16 <<< 4) ||| (w.extractLsb' 0 2).setWidth 16 := by
  apply BitVec.eq_of_getLsbD_eq
  intro i hi
  have := bit_of_match h i
  interval_cases i <;> simp_all

/-- A word of the kind format is its pattern, its kind and its line number. -/
theorem eq_of_match_LK {w p : Word} (h : w &&& 0xFCFC#16 = p) :
    w = p ||| ((w.extractLsb' 8 2).setWidth 16 <<< 8) ||| (w.extractLsb' 0 2).setWidth 16 := by
  apply BitVec.eq_of_getLsbD_eq
  intro i hi
  have := bit_of_match h i
  interval_cases i <;> simp_all

end Sys2Proof
end

