-- ==== Sys2Proof/Laws/State.lean ====
section
/-! SUPPORT. One lemma per field per update of the state, each true by unfolding: no later proof unfolds an update. -/

namespace Sys2Proof.Machine

/-! The fields after a write of `EN[i]`. -/

@[simp] theorem State.setEn_clock (s : State) (i : LineId) (v : Bool) : (s.setEn i v).clock = s.clock := rfl
@[simp] theorem State.setEn_gate (s : State) (i : LineId) (v : Bool) : (s.setEn i v).gate = s.gate := rfl
@[simp] theorem State.setEn_tcfg (s : State) (i : LineId) (v : Bool) : (s.setEn i v).tcfg = s.tcfg := rfl
@[simp] theorem State.setEn_tickPend (s : State) (i : LineId) (v : Bool) : (s.setEn i v).tickPend = s.tickPend := rfl
@[simp] theorem State.setEn_tickOvr (s : State) (i : LineId) (v : Bool) : (s.setEn i v).tickOvr = s.tickOvr := rfl
@[simp] theorem State.setEn_ie (s : State) (i : LineId) (v : Bool) : (s.setEn i v).ie = s.ie := rfl
@[simp] theorem State.setEn_en (s : State) (i : LineId) (v : Bool) : (s.setEn i v).en = s.en.set i v := rfl
@[simp] theorem State.setEn_sense0 (s : State) (i : LineId) (v : Bool) : (s.setEn i v).sense0 = s.sense0 := rfl
@[simp] theorem State.setEn_sense1 (s : State) (i : LineId) (v : Bool) : (s.setEn i v).sense1 = s.sense1 := rfl
@[simp] theorem State.setEn_sense2 (s : State) (i : LineId) (v : Bool) : (s.setEn i v).sense2 = s.sense2 := rfl
@[simp] theorem State.setEn_pend (s : State) (i : LineId) (v : Bool) : (s.setEn i v).pend = s.pend := rfl
@[simp] theorem State.setEn_last (s : State) (i : LineId) (v : Bool) : (s.setEn i v).last = s.last := rfl
@[simp] theorem State.setEn_pos (s : State) (i : LineId) (v : Bool) : (s.setEn i v).pos = s.pos := rfl
@[simp] theorem State.setEn_sel (s : State) (i : LineId) (v : Bool) : (s.setEn i v).sel = s.sel := rfl
@[simp] theorem State.setEn_bcd (s : State) (i : LineId) (v : Bool) : (s.setEn i v).bcd = s.bcd := rfl
@[simp] theorem State.setEn_vis (s : State) (i : LineId) (v : Bool) : (s.setEn i v).vis = s.vis := rfl
@[simp] theorem State.setEn_rdata (s : State) (i : LineId) (v : Bool) : (s.setEn i v).rdata = s.rdata := rfl
@[simp] theorem State.setEn_refused (s : State) (i : LineId) (v : Bool) : (s.setEn i v).refused = s.refused := rfl
@[simp] theorem State.setEn_port (s : State) (i : LineId) (v : Bool) : (s.setEn i v).port = s.port := rfl

/-! The fields after a write of `PEND[i]`. -/

@[simp] theorem State.setPend_clock (s : State) (i : LineId) (v : Bool) : (s.setPend i v).clock = s.clock := rfl
@[simp] theorem State.setPend_gate (s : State) (i : LineId) (v : Bool) : (s.setPend i v).gate = s.gate := rfl
@[simp] theorem State.setPend_tcfg (s : State) (i : LineId) (v : Bool) : (s.setPend i v).tcfg = s.tcfg := rfl
@[simp] theorem State.setPend_tickPend (s : State) (i : LineId) (v : Bool) : (s.setPend i v).tickPend = s.tickPend := rfl
@[simp] theorem State.setPend_tickOvr (s : State) (i : LineId) (v : Bool) : (s.setPend i v).tickOvr = s.tickOvr := rfl
@[simp] theorem State.setPend_ie (s : State) (i : LineId) (v : Bool) : (s.setPend i v).ie = s.ie := rfl
@[simp] theorem State.setPend_en (s : State) (i : LineId) (v : Bool) : (s.setPend i v).en = s.en := rfl
@[simp] theorem State.setPend_sense0 (s : State) (i : LineId) (v : Bool) : (s.setPend i v).sense0 = s.sense0 := rfl
@[simp] theorem State.setPend_sense1 (s : State) (i : LineId) (v : Bool) : (s.setPend i v).sense1 = s.sense1 := rfl
@[simp] theorem State.setPend_sense2 (s : State) (i : LineId) (v : Bool) : (s.setPend i v).sense2 = s.sense2 := rfl
@[simp] theorem State.setPend_pend (s : State) (i : LineId) (v : Bool) : (s.setPend i v).pend = s.pend.set i v := rfl
@[simp] theorem State.setPend_last (s : State) (i : LineId) (v : Bool) : (s.setPend i v).last = s.last := rfl
@[simp] theorem State.setPend_pos (s : State) (i : LineId) (v : Bool) : (s.setPend i v).pos = s.pos := rfl
@[simp] theorem State.setPend_sel (s : State) (i : LineId) (v : Bool) : (s.setPend i v).sel = s.sel := rfl
@[simp] theorem State.setPend_bcd (s : State) (i : LineId) (v : Bool) : (s.setPend i v).bcd = s.bcd := rfl
@[simp] theorem State.setPend_vis (s : State) (i : LineId) (v : Bool) : (s.setPend i v).vis = s.vis := rfl
@[simp] theorem State.setPend_rdata (s : State) (i : LineId) (v : Bool) : (s.setPend i v).rdata = s.rdata := rfl
@[simp] theorem State.setPend_refused (s : State) (i : LineId) (v : Bool) : (s.setPend i v).refused = s.refused := rfl
@[simp] theorem State.setPend_port (s : State) (i : LineId) (v : Bool) : (s.setPend i v).port = s.port := rfl

/-! The fields after a write of `LAST[i]`. -/

@[simp] theorem State.setLast_clock (s : State) (i : LineId) (v : LineLevel) : (s.setLast i v).clock = s.clock := rfl
@[simp] theorem State.setLast_gate (s : State) (i : LineId) (v : LineLevel) : (s.setLast i v).gate = s.gate := rfl
@[simp] theorem State.setLast_tcfg (s : State) (i : LineId) (v : LineLevel) : (s.setLast i v).tcfg = s.tcfg := rfl
@[simp] theorem State.setLast_tickPend (s : State) (i : LineId) (v : LineLevel) : (s.setLast i v).tickPend = s.tickPend := rfl
@[simp] theorem State.setLast_tickOvr (s : State) (i : LineId) (v : LineLevel) : (s.setLast i v).tickOvr = s.tickOvr := rfl
@[simp] theorem State.setLast_ie (s : State) (i : LineId) (v : LineLevel) : (s.setLast i v).ie = s.ie := rfl
@[simp] theorem State.setLast_en (s : State) (i : LineId) (v : LineLevel) : (s.setLast i v).en = s.en := rfl
@[simp] theorem State.setLast_sense0 (s : State) (i : LineId) (v : LineLevel) : (s.setLast i v).sense0 = s.sense0 := rfl
@[simp] theorem State.setLast_sense1 (s : State) (i : LineId) (v : LineLevel) : (s.setLast i v).sense1 = s.sense1 := rfl
@[simp] theorem State.setLast_sense2 (s : State) (i : LineId) (v : LineLevel) : (s.setLast i v).sense2 = s.sense2 := rfl
@[simp] theorem State.setLast_pend (s : State) (i : LineId) (v : LineLevel) : (s.setLast i v).pend = s.pend := rfl
@[simp] theorem State.setLast_last (s : State) (i : LineId) (v : LineLevel) : (s.setLast i v).last = s.last.set i v := rfl
@[simp] theorem State.setLast_pos (s : State) (i : LineId) (v : LineLevel) : (s.setLast i v).pos = s.pos := rfl
@[simp] theorem State.setLast_sel (s : State) (i : LineId) (v : LineLevel) : (s.setLast i v).sel = s.sel := rfl
@[simp] theorem State.setLast_bcd (s : State) (i : LineId) (v : LineLevel) : (s.setLast i v).bcd = s.bcd := rfl
@[simp] theorem State.setLast_vis (s : State) (i : LineId) (v : LineLevel) : (s.setLast i v).vis = s.vis := rfl
@[simp] theorem State.setLast_rdata (s : State) (i : LineId) (v : LineLevel) : (s.setLast i v).rdata = s.rdata := rfl
@[simp] theorem State.setLast_refused (s : State) (i : LineId) (v : LineLevel) : (s.setLast i v).refused = s.refused := rfl
@[simp] theorem State.setLast_port (s : State) (i : LineId) (v : LineLevel) : (s.setLast i v).port = s.port := rfl

/-! The fields after `ADVANCE`. -/

@[simp] theorem handlerAdvance_clock (s : State) : (handlerAdvance s).clock = advanceValue s.clock := rfl
@[simp] theorem handlerAdvance_gate (s : State) : (handlerAdvance s).gate = s.gate := rfl
@[simp] theorem handlerAdvance_tcfg (s : State) : (handlerAdvance s).tcfg = s.tcfg := rfl
@[simp] theorem handlerAdvance_tickPend (s : State) : (handlerAdvance s).tickPend = s.tickPend := rfl
@[simp] theorem handlerAdvance_tickOvr (s : State) : (handlerAdvance s).tickOvr = s.tickOvr := rfl
@[simp] theorem handlerAdvance_ie (s : State) : (handlerAdvance s).ie = s.ie := rfl
@[simp] theorem handlerAdvance_en (s : State) : (handlerAdvance s).en = s.en := rfl
@[simp] theorem handlerAdvance_sense0 (s : State) : (handlerAdvance s).sense0 = s.sense0 := rfl
@[simp] theorem handlerAdvance_sense1 (s : State) : (handlerAdvance s).sense1 = s.sense1 := rfl
@[simp] theorem handlerAdvance_sense2 (s : State) : (handlerAdvance s).sense2 = s.sense2 := rfl
@[simp] theorem handlerAdvance_pend (s : State) : (handlerAdvance s).pend = s.pend := rfl
@[simp] theorem handlerAdvance_last (s : State) : (handlerAdvance s).last = s.last := rfl
@[simp] theorem handlerAdvance_pos (s : State) : (handlerAdvance s).pos = s.pos := rfl
@[simp] theorem handlerAdvance_sel (s : State) : (handlerAdvance s).sel = s.sel := rfl
@[simp] theorem handlerAdvance_bcd (s : State) : (handlerAdvance s).bcd = s.bcd := rfl
@[simp] theorem handlerAdvance_vis (s : State) : (handlerAdvance s).vis = s.vis := rfl
@[simp] theorem handlerAdvance_rdata (s : State) : (handlerAdvance s).rdata = s.rdata := rfl
@[simp] theorem handlerAdvance_refused (s : State) : (handlerAdvance s).refused = s.refused := rfl
@[simp] theorem handlerAdvance_port (s : State) : (handlerAdvance s).port = s.port := rfl

/-! The fields after `CLKRESET`. -/

@[simp] theorem handlerClkReset_clock (s : State) : (handlerClkReset s).clock = { sec := 0#6, min := 0#6, hour := 0#5 } := rfl
@[simp] theorem handlerClkReset_gate (s : State) : (handlerClkReset s).gate = s.gate := rfl
@[simp] theorem handlerClkReset_tcfg (s : State) : (handlerClkReset s).tcfg = s.tcfg := rfl
@[simp] theorem handlerClkReset_tickPend (s : State) : (handlerClkReset s).tickPend = false := rfl
@[simp] theorem handlerClkReset_tickOvr (s : State) : (handlerClkReset s).tickOvr = s.tickOvr := rfl
@[simp] theorem handlerClkReset_ie (s : State) : (handlerClkReset s).ie = s.ie := rfl
@[simp] theorem handlerClkReset_en (s : State) : (handlerClkReset s).en = s.en := rfl
@[simp] theorem handlerClkReset_sense0 (s : State) : (handlerClkReset s).sense0 = s.sense0 := rfl
@[simp] theorem handlerClkReset_sense1 (s : State) : (handlerClkReset s).sense1 = s.sense1 := rfl
@[simp] theorem handlerClkReset_sense2 (s : State) : (handlerClkReset s).sense2 = s.sense2 := rfl
@[simp] theorem handlerClkReset_pend (s : State) : (handlerClkReset s).pend = s.pend := rfl
@[simp] theorem handlerClkReset_last (s : State) : (handlerClkReset s).last = s.last := rfl
@[simp] theorem handlerClkReset_pos (s : State) : (handlerClkReset s).pos = s.pos := rfl
@[simp] theorem handlerClkReset_sel (s : State) : (handlerClkReset s).sel = s.sel := rfl
@[simp] theorem handlerClkReset_bcd (s : State) : (handlerClkReset s).bcd = s.bcd := rfl
@[simp] theorem handlerClkReset_vis (s : State) : (handlerClkReset s).vis = s.vis := rfl
@[simp] theorem handlerClkReset_rdata (s : State) : (handlerClkReset s).rdata = s.rdata := rfl
@[simp] theorem handlerClkReset_refused (s : State) : (handlerClkReset s).refused = s.refused := rfl
@[simp] theorem handlerClkReset_port (s : State) : (handlerClkReset s).port = s.port := rfl

/-! The fields after `GATEOFF`. -/

@[simp] theorem handlerGateOff_clock (s : State) : (handlerGateOff s).clock = s.clock := rfl
@[simp] theorem handlerGateOff_gate (s : State) : (handlerGateOff s).gate = .paused := rfl
@[simp] theorem handlerGateOff_tcfg (s : State) : (handlerGateOff s).tcfg = s.tcfg := rfl
@[simp] theorem handlerGateOff_tickPend (s : State) : (handlerGateOff s).tickPend = false := rfl
@[simp] theorem handlerGateOff_tickOvr (s : State) : (handlerGateOff s).tickOvr = s.tickOvr := rfl
@[simp] theorem handlerGateOff_ie (s : State) : (handlerGateOff s).ie = s.ie := rfl
@[simp] theorem handlerGateOff_en (s : State) : (handlerGateOff s).en = s.en := rfl
@[simp] theorem handlerGateOff_sense0 (s : State) : (handlerGateOff s).sense0 = s.sense0 := rfl
@[simp] theorem handlerGateOff_sense1 (s : State) : (handlerGateOff s).sense1 = s.sense1 := rfl
@[simp] theorem handlerGateOff_sense2 (s : State) : (handlerGateOff s).sense2 = s.sense2 := rfl
@[simp] theorem handlerGateOff_pend (s : State) : (handlerGateOff s).pend = s.pend := rfl
@[simp] theorem handlerGateOff_last (s : State) : (handlerGateOff s).last = s.last := rfl
@[simp] theorem handlerGateOff_pos (s : State) : (handlerGateOff s).pos = s.pos := rfl
@[simp] theorem handlerGateOff_sel (s : State) : (handlerGateOff s).sel = s.sel := rfl
@[simp] theorem handlerGateOff_bcd (s : State) : (handlerGateOff s).bcd = s.bcd := rfl
@[simp] theorem handlerGateOff_vis (s : State) : (handlerGateOff s).vis = s.vis := rfl
@[simp] theorem handlerGateOff_rdata (s : State) : (handlerGateOff s).rdata = s.rdata := rfl
@[simp] theorem handlerGateOff_refused (s : State) : (handlerGateOff s).refused = s.refused := rfl
@[simp] theorem handlerGateOff_port (s : State) : (handlerGateOff s).port = s.port := rfl

/-! The fields after `GATEON`. -/

@[simp] theorem handlerGateOn_clock (s : State) : (handlerGateOn s).clock = s.clock := rfl
@[simp] theorem handlerGateOn_gate (s : State) : (handlerGateOn s).gate = .running := rfl
@[simp] theorem handlerGateOn_tcfg (s : State) : (handlerGateOn s).tcfg = Config.initCfg := rfl
@[simp] theorem handlerGateOn_tickPend (s : State) : (handlerGateOn s).tickPend = s.tickPend := rfl
@[simp] theorem handlerGateOn_tickOvr (s : State) : (handlerGateOn s).tickOvr = s.tickOvr := rfl
@[simp] theorem handlerGateOn_ie (s : State) : (handlerGateOn s).ie = s.ie := rfl
@[simp] theorem handlerGateOn_en (s : State) : (handlerGateOn s).en = s.en := rfl
@[simp] theorem handlerGateOn_sense0 (s : State) : (handlerGateOn s).sense0 = s.sense0 := rfl
@[simp] theorem handlerGateOn_sense1 (s : State) : (handlerGateOn s).sense1 = s.sense1 := rfl
@[simp] theorem handlerGateOn_sense2 (s : State) : (handlerGateOn s).sense2 = s.sense2 := rfl
@[simp] theorem handlerGateOn_pend (s : State) : (handlerGateOn s).pend = s.pend := rfl
@[simp] theorem handlerGateOn_last (s : State) : (handlerGateOn s).last = s.last := rfl
@[simp] theorem handlerGateOn_pos (s : State) : (handlerGateOn s).pos = s.pos := rfl
@[simp] theorem handlerGateOn_sel (s : State) : (handlerGateOn s).sel = s.sel := rfl
@[simp] theorem handlerGateOn_bcd (s : State) : (handlerGateOn s).bcd = s.bcd := rfl
@[simp] theorem handlerGateOn_vis (s : State) : (handlerGateOn s).vis = s.vis := rfl
@[simp] theorem handlerGateOn_rdata (s : State) : (handlerGateOn s).rdata = s.rdata := rfl
@[simp] theorem handlerGateOn_refused (s : State) : (handlerGateOn s).refused = s.refused := rfl
@[simp] theorem handlerGateOn_port (s : State) : (handlerGateOn s).port = s.port := rfl

/-! The fields after a visit of the scanner. -/

@[simp] theorem visitPosition_clock (s : State) : (visitPosition s).clock = s.clock := rfl
@[simp] theorem visitPosition_gate (s : State) : (visitPosition s).gate = s.gate := rfl
@[simp] theorem visitPosition_tcfg (s : State) : (visitPosition s).tcfg = s.tcfg := rfl
@[simp] theorem visitPosition_tickPend (s : State) : (visitPosition s).tickPend = s.tickPend := rfl
@[simp] theorem visitPosition_tickOvr (s : State) : (visitPosition s).tickOvr = s.tickOvr := rfl
@[simp] theorem visitPosition_ie (s : State) : (visitPosition s).ie = s.ie := rfl
@[simp] theorem visitPosition_en (s : State) : (visitPosition s).en = s.en := rfl
@[simp] theorem visitPosition_sense0 (s : State) : (visitPosition s).sense0 = s.sense0 := rfl
@[simp] theorem visitPosition_sense1 (s : State) : (visitPosition s).sense1 = s.sense1 := rfl
@[simp] theorem visitPosition_sense2 (s : State) : (visitPosition s).sense2 = s.sense2 := rfl
@[simp] theorem visitPosition_pend (s : State) : (visitPosition s).pend = s.pend := rfl
@[simp] theorem visitPosition_last (s : State) : (visitPosition s).last = s.last := rfl
@[simp] theorem visitPosition_pos (s : State) : (visitPosition s).pos = nextPos s.pos := rfl
@[simp] theorem visitPosition_sel (s : State) : (visitPosition s).sel = onehot6 s.pos := rfl
@[simp] theorem visitPosition_bcd (s : State) : (visitPosition s).bcd = digitAt s.clock s.pos := rfl
@[simp] theorem visitPosition_vis (s : State) : (visitPosition s).vis = s.vis.set s.pos (digitAt s.clock s.pos) := rfl
@[simp] theorem visitPosition_rdata (s : State) : (visitPosition s).rdata = s.rdata := rfl
@[simp] theorem visitPosition_refused (s : State) : (visitPosition s).refused = s.refused := rfl
@[simp] theorem visitPosition_port (s : State) : (visitPosition s).port = s.port := rfl

/-! The fields after a refusal. -/

@[simp] theorem refuse_clock (s : State) : (refuse s).clock = s.clock := rfl
@[simp] theorem refuse_gate (s : State) : (refuse s).gate = s.gate := rfl
@[simp] theorem refuse_tcfg (s : State) : (refuse s).tcfg = s.tcfg := rfl
@[simp] theorem refuse_tickPend (s : State) : (refuse s).tickPend = s.tickPend := rfl
@[simp] theorem refuse_tickOvr (s : State) : (refuse s).tickOvr = s.tickOvr := rfl
@[simp] theorem refuse_ie (s : State) : (refuse s).ie = s.ie := rfl
@[simp] theorem refuse_en (s : State) : (refuse s).en = s.en := rfl
@[simp] theorem refuse_sense0 (s : State) : (refuse s).sense0 = s.sense0 := rfl
@[simp] theorem refuse_sense1 (s : State) : (refuse s).sense1 = s.sense1 := rfl
@[simp] theorem refuse_sense2 (s : State) : (refuse s).sense2 = s.sense2 := rfl
@[simp] theorem refuse_pend (s : State) : (refuse s).pend = s.pend := rfl
@[simp] theorem refuse_last (s : State) : (refuse s).last = s.last := rfl
@[simp] theorem refuse_pos (s : State) : (refuse s).pos = s.pos := rfl
@[simp] theorem refuse_sel (s : State) : (refuse s).sel = s.sel := rfl
@[simp] theorem refuse_bcd (s : State) : (refuse s).bcd = s.bcd := rfl
@[simp] theorem refuse_vis (s : State) : (refuse s).vis = s.vis := rfl
@[simp] theorem refuse_rdata (s : State) : (refuse s).rdata = s.rdata := rfl
@[simp] theorem refuse_refused (s : State) : (refuse s).refused = true := rfl
@[simp] theorem refuse_port (s : State) : (refuse s).port = s.port := rfl

/-! The fields after presenting a word first. -/

@[simp] theorem presentFirst_clock (w : Word) (s : State) : (presentFirst w s).clock = s.clock := rfl
@[simp] theorem presentFirst_gate (w : Word) (s : State) : (presentFirst w s).gate = s.gate := rfl
@[simp] theorem presentFirst_tcfg (w : Word) (s : State) : (presentFirst w s).tcfg = s.tcfg := rfl
@[simp] theorem presentFirst_tickPend (w : Word) (s : State) : (presentFirst w s).tickPend = s.tickPend := rfl
@[simp] theorem presentFirst_tickOvr (w : Word) (s : State) : (presentFirst w s).tickOvr = s.tickOvr := rfl
@[simp] theorem presentFirst_ie (w : Word) (s : State) : (presentFirst w s).ie = s.ie := rfl
@[simp] theorem presentFirst_en (w : Word) (s : State) : (presentFirst w s).en = s.en := rfl
@[simp] theorem presentFirst_sense0 (w : Word) (s : State) : (presentFirst w s).sense0 = s.sense0 := rfl
@[simp] theorem presentFirst_sense1 (w : Word) (s : State) : (presentFirst w s).sense1 = s.sense1 := rfl
@[simp] theorem presentFirst_sense2 (w : Word) (s : State) : (presentFirst w s).sense2 = s.sense2 := rfl
@[simp] theorem presentFirst_pend (w : Word) (s : State) : (presentFirst w s).pend = s.pend := rfl
@[simp] theorem presentFirst_last (w : Word) (s : State) : (presentFirst w s).last = s.last := rfl
@[simp] theorem presentFirst_pos (w : Word) (s : State) : (presentFirst w s).pos = s.pos := rfl
@[simp] theorem presentFirst_sel (w : Word) (s : State) : (presentFirst w s).sel = s.sel := rfl
@[simp] theorem presentFirst_bcd (w : Word) (s : State) : (presentFirst w s).bcd = s.bcd := rfl
@[simp] theorem presentFirst_vis (w : Word) (s : State) : (presentFirst w s).vis = s.vis := rfl
@[simp] theorem presentFirst_rdata (w : Word) (s : State) : (presentFirst w s).rdata = s.rdata := rfl
@[simp] theorem presentFirst_refused (w : Word) (s : State) : (presentFirst w s).refused = s.refused := rfl
@[simp] theorem presentFirst_port (w : Word) (s : State) : (presentFirst w s).port = w :: s.port := rfl

/-! The fields after presenting a word last. -/

@[simp] theorem presentLast_clock (w : Word) (s : State) : (presentLast w s).clock = s.clock := rfl
@[simp] theorem presentLast_gate (w : Word) (s : State) : (presentLast w s).gate = s.gate := rfl
@[simp] theorem presentLast_tcfg (w : Word) (s : State) : (presentLast w s).tcfg = s.tcfg := rfl
@[simp] theorem presentLast_tickPend (w : Word) (s : State) : (presentLast w s).tickPend = s.tickPend := rfl
@[simp] theorem presentLast_tickOvr (w : Word) (s : State) : (presentLast w s).tickOvr = s.tickOvr := rfl
@[simp] theorem presentLast_ie (w : Word) (s : State) : (presentLast w s).ie = s.ie := rfl
@[simp] theorem presentLast_en (w : Word) (s : State) : (presentLast w s).en = s.en := rfl
@[simp] theorem presentLast_sense0 (w : Word) (s : State) : (presentLast w s).sense0 = s.sense0 := rfl
@[simp] theorem presentLast_sense1 (w : Word) (s : State) : (presentLast w s).sense1 = s.sense1 := rfl
@[simp] theorem presentLast_sense2 (w : Word) (s : State) : (presentLast w s).sense2 = s.sense2 := rfl
@[simp] theorem presentLast_pend (w : Word) (s : State) : (presentLast w s).pend = s.pend := rfl
@[simp] theorem presentLast_last (w : Word) (s : State) : (presentLast w s).last = s.last := rfl
@[simp] theorem presentLast_pos (w : Word) (s : State) : (presentLast w s).pos = s.pos := rfl
@[simp] theorem presentLast_sel (w : Word) (s : State) : (presentLast w s).sel = s.sel := rfl
@[simp] theorem presentLast_bcd (w : Word) (s : State) : (presentLast w s).bcd = s.bcd := rfl
@[simp] theorem presentLast_vis (w : Word) (s : State) : (presentLast w s).vis = s.vis := rfl
@[simp] theorem presentLast_rdata (w : Word) (s : State) : (presentLast w s).rdata = s.rdata := rfl
@[simp] theorem presentLast_refused (w : Word) (s : State) : (presentLast w s).refused = s.refused := rfl
@[simp] theorem presentLast_port (w : Word) (s : State) : (presentLast w s).port = s.port ++ [w] := rfl

end Sys2Proof.Machine
end

