-- ==== Sys2Proof/Laws/Ops.lean ====
section
/-! SUPPORT. The spec lemmas of the shared operations: array elements, positions, edges, requests, samples, service. -/

namespace Sys2Proof.Machine

/-! ### Array elements -/

@[simp] theorem PerLine.get_set_same {α : Type} (r : PerLine α) (i : LineId) (v : α) : (r.set i v).get i = v := by
  cases i <;> rfl

theorem PerLine.get_set_ne {α : Type} (r : PerLine α) {i j : LineId} (v : α) (h : j ≠ i) :
    (r.set i v).get j = r.get j := by
  cases i <;> cases j <;> first | rfl | exact absurd rfl h

theorem PerLine.get_set {α : Type} (r : PerLine α) (i j : LineId) (v : α) :
    (r.set i v).get j = if j = i then v else r.get j := by
  cases i <;> cases j <;> rfl

/-- Two arrays with the same elements are the same array. -/
theorem PerLine.ext_get {α : Type} {r q : PerLine α} (h : ∀ i, r.get i = q.get i) : r = q := by
  cases r
  cases q
  exact congr (congr (congrArg _ (h .l0)) (h .l1)) (h .l2)

/-- Writing the value an element holds changes nothing. -/
@[simp] theorem PerLine.set_get {α : Type} (r : PerLine α) (i : LineId) : r.set i (r.get i) = r := by
  cases i <;> rfl

@[simp] theorem DigitFrame.get_set_same (f : DigitFrame) (p : DigitPos) (d : BitVec 4) : (f.set p d).get p = d := by
  cases p <;> rfl

theorem DigitFrame.get_set (f : DigitFrame) (p q : DigitPos) (d : BitVec 4) :
    (f.set p d).get q = if q = p then d else f.get q := by
  cases p <;> cases q <;> rfl

/-- Two frames with the same digits are the same frame. -/
theorem DigitFrame.ext_get {f g : DigitFrame} (h : ∀ p, f.get p = g.get p) : f = g := by
  cases f
  cases g
  exact congr (congr (congr (congr (congr (congrArg _ (h .secondsOnes)) (h .secondsTens)) (h .minutesOnes))
    (h .minutesTens)) (h .hoursOnes)) (h .hoursTens)

@[simp] theorem displayFrame_get (c : ClockValue) (p : DigitPos) : (displayFrame c).get p = digitAt c p := by
  cases p <;> rfl

/-! ### Positions and digits -/

theorem posNumber_lt (p : DigitPos) : posNumber p < 6 := by cases p <;> decide

theorem posNumber_inj {p q : DigitPos} (h : posNumber p = posNumber q) : p = q := by
  cases p <;> cases q <;> first | rfl | exact absurd h (by decide)

@[simp] theorem posNumber_nextPos (p : DigitPos) : posNumber (nextPos p) = (posNumber p + 1) % 6 := by
  cases p <;> rfl

/-- A digit is at most 9 on every ClockValue. -/
theorem digitAt_le (c : ClockValue) (p : DigitPos) : (digitAt c p).toNat ≤ 9 := by
  simp only [digitAt, BitVec.toNat_ofNat]
  omega

/-! ### Samples, requests, service -/

/-- A request depends only on the lines' enables, latches, kinds and levels. -/
theorem requestLine_congr {s t : State} (i : LineId) (he : t.en = s.en) (hp : t.pend = s.pend) (hl : t.last = s.last)
    (hk : kindOf t i = kindOf s i) : requestLine t i = requestLine s i := by
  simp only [requestLine, he, hp, hl, hk]

/-- `kind(i)` depends only on the trigger fields. -/
theorem kindOf_congr {s t : State} (h0 : t.sense0 = s.sense0) (h1 : t.sense1 = s.sense1) (h2 : t.sense2 = s.sense2)
    (i : LineId) : kindOf t i = kindOf s i := by
  cases i <;> simp only [kindOf, h0, h1, h2]

/-- Everything a tick while Running can do (rule R90). -/
theorem latchTick_eq (s : State) :
    latchTick s = { s with tickPend := true, tickOvr := s.tickOvr || s.tickPend } := by
  cases s with
  | mk c g t tp => cases tp <;> simp [latchTick]

/-- Everything a sample can do (rule R132). -/
theorem sampleLine_eq (i : LineId) (lv : LineLevel) (s : State) :
    sampleLine i lv s = { s with
      last := s.last.set i lv
      pend := if s.en.get i && edgeSeen (kindOf s i) (s.last.get i) lv then s.pend.set i true else s.pend } := by
  unfold sampleLine
  split <;> rfl

/-- A kind write changes the trigger fields only (rule R133). -/
theorem setSense_frame (i : LineId) (kd : TriggerKind) (s : State) :
    setSense i kd s = { s with
      sense0 := (setSense i kd s).sense0, sense1 := (setSense i kd s).sense1, sense2 := (setSense i kd s).sense2 } := by
  cases i <;> cases kd <;> rfl

/-- Everything servicing a source can do (rules R92, R93, R110, R111, R150, R212). -/
theorem service_eq (src : Source) (s : State) :
    service src s =
      match src with
      | .line .l0 => { s with
          pend := s.pend.set .l0 false, clock := { sec := 0#6, min := 0#6, hour := 0#5 }, tickPend := false }
      | .line .l1 => { s with pend := s.pend.set .l1 false, gate := .paused, tickPend := false }
      | .line .l2 => { s with pend := s.pend.set .l2 false, gate := .running, tcfg := Config.initCfg }
      | .tick => { s with clock := advanceValue s.clock, tickPend := false } := by
  cases src with
  | line i => cases i <;> rfl
  | tick => rfl

/-- What servicing any source leaves alone (rule R215). -/
theorem service_frame (src : Source) (s : State) :
    service src s = { s with
      pend := (service src s).pend, clock := (service src s).clock, tickPend := (service src s).tickPend,
      gate := (service src s).gate, tcfg := (service src s).tcfg } := by
  cases src with
  | line i => cases i <;> rfl
  | tick => rfl

/-- Which source is selected (rule R151). -/
theorem selectSource_eq_some_tick {s : State} :
    selectSource s = some .tick ↔
      requestLine s .l0 = false ∧ requestLine s .l1 = false ∧ requestLine s .l2 = false ∧ s.tickPend = true := by
  simp only [selectSource, requestTick]
  cases requestLine s .l0 <;> cases requestLine s .l1 <;> cases requestLine s .l2 <;>
    by_cases h : s.tickPend = true <;> simp [h]

/-- A selected line requests service, and no line before it does (rule R151). -/
theorem selectSource_eq_some_line {s : State} {i : LineId} :
    selectSource s = some (.line i) ↔ requestLine s i = true ∧
      (i = .l1 → requestLine s .l0 = false) ∧ (i = .l2 → requestLine s .l0 = false ∧ requestLine s .l1 = false) := by
  simp only [selectSource, requestTick]
  cases i <;> cases requestLine s .l0 <;> cases requestLine s .l1 <;> cases requestLine s .l2 <;>
    by_cases h : s.tickPend = true <;> simp [h]

/-- The successor of a legal ClockValue is one second later, modulo 24 hours, and legal (rule R91). -/
theorem advanceValue_valid {c : ClockValue} (h : c.valid = true) : (advanceValue c).valid = true := by
  simp only [ClockValue.valid, Bool.and_eq_true, decide_eq_true_eq] at h ⊢
  unfold advanceValue
  have h1 : (1#6).toNat = 1 := rfl
  have h2 : (1#5).toNat = 1 := rfl
  split
  · simp only [BitVec.toNat_add, h1]; omega
  · split
    · simp only [BitVec.toNat_add, h1, BitVec.toNat_ofNat]; omega
    · split
      · simp only [BitVec.toNat_add, h2, BitVec.toNat_ofNat]; omega
      · simp

end Sys2Proof.Machine
end

