-- ==== Sys2Proof/Laws/Exec.lean ====
section
/-! SUPPORT. What a command and a step can do, said once: the effect of each command, the inversion of a step, and runs of
commands. -/

namespace Sys2Proof.Machine

/-- The next state of a command, which always has one. -/
def effect : Instr → State → State
  | .tick, s => if s.gate = .running then latchTick s else s
  | .line ln lv, s => (lineOf ln).elim s (fun i => sampleLine i lv s)
  | .ecfg ln kd, s => (lineOf ln).elim s (fun i => setSense i kd s)
  | .een ln, s => (lineOf ln).elim s (fun i => s.setEn i true)
  | .edis ln, s => (lineOf ln).elim s (fun i => (s.setEn i false).setPend i false)
  | .irqoff, s => { s with ie := false }
  | .irqon, s => { s with ie := true }
  | .disp, s => if s.ie then (selectSource s).elim s (fun src => service src s) else s
  | .scan, s => visitPosition s
  | .rd ad, s => { s with rdata := regRead s ad }

/-- Every command answers its effect: none faults, none is refused. -/
theorem exec_eq_effect (i : Instr) (s : State) : exec i s = .next (effect i s) := by
  cases i with
  | tick => cases h : s.gate <;> simp [exec, execTick, effect, h]
  | line ln lv => cases h : lineOf ln <;> simp [exec, execLine, effect, h]
  | ecfg ln kd => cases h : lineOf ln <;> simp [exec, execEcfg, effect, h]
  | een ln => cases h : lineOf ln <;> simp [exec, execEen, effect, h]
  | edis ln => cases h : lineOf ln <;> simp [exec, execEdis, effect, h]
  | irqoff => rfl
  | irqon => rfl
  | disp => cases hi : s.ie <;> cases h : selectSource s <;> simp [exec, execDisp, effect, hi, h]
  | scan => rfl
  | rd ad => rfl

/-- A command's next state is its effect. -/
theorem exec_next_iff {i : Instr} {s t : State} : exec i s = .next t ↔ t = effect i s := by
  rw [exec_eq_effect]
  constructor
  · intro h
    injection h with h
    exact h.symm
  · intro h
    rw [h]

/-- The inversion of a step: idle, a command run, or a refusal marked. -/
theorem step_cases {s t : State} (h : step s = .next t) :
    (s.port = [] ∧ t = s) ∨
    (∃ w rest i, s.port = w :: rest ∧ s.refused = false ∧ s.clock.valid = true ∧ decode w = .ok i ∧
      nextCommand s = some i ∧ t = effect i { s with port := rest }) ∨
    (∃ w rest, s.port = w :: rest ∧ s.refused = false ∧ nextCommand s = none ∧
      t = refuse { s with port := rest }) := by
  unfold step takeWord at h
  cases hp : s.port with
  | nil =>
    rw [hp] at h
    injection h with h
    exact .inl ⟨rfl, h.symm⟩
  | cons w rest =>
    rw [hp] at h
    simp only [runWord] at h
    cases hr : s.refused with
    | true => simp [hr] at h
    | false =>
      cases hv : s.clock.valid with
      | false =>
        simp only [hr, hv, Bool.false_eq_true, if_false] at h
        injection h with h
        exact .inr (.inr ⟨w, rest, rfl, rfl, by simp [nextCommand, hp, hr, hv], h.symm⟩)
      | true =>
        cases hd : decode w with
        | error e =>
          simp only [hr, hv, hd, Bool.false_eq_true, if_false, if_true] at h
          injection h with h
          exact .inr (.inr ⟨w, rest, rfl, rfl, by simp [nextCommand, hp, hr, hv, hd], h.symm⟩)
        | ok i =>
          simp only [hr, hv, hd, Bool.false_eq_true, if_false, if_true] at h
          rw [exec_next_iff] at h
          exact .inr (.inl ⟨w, rest, i, rfl, rfl, rfl, hd, by simp [nextCommand, hp, hr, hv, hd], by rw [h]⟩)

/-- A run whose first step has a next state goes on from there. -/
theorem core_run_next {s t : State} (h : step s = .next t) (k : Nat) :
    Host.Core.run Sys2Proof.core (k + 1) s = Host.Core.run Sys2Proof.core k t := by
  have hc : Sys2Proof.core.step s = .next t := h
  simp only [Host.Core.run, hc]

/-- The state after a list of commands. -/
def effects : List Instr → State → State
  | [], s => s
  | i :: is, s => effects is (effect i s)

/-- A list of commands answers its effects. -/
theorem execAll_eq_effects (is : List Instr) (s : State) : execAll is s = .next (effects is s) := by
  induction is generalizing s with
  | nil => rfl
  | cons i is ih => simp only [execAll, exec_eq_effect, effects, ih]

/-- A run of commands ends in its effects. -/
theorem execAll_next_iff {is : List Instr} {s t : State} : execAll is s = .next t ↔ t = effects is s := by
  rw [execAll_eq_effects]
  constructor
  · intro h
    injection h with h
    exact h.symm
  · intro h
    rw [h]

@[simp] theorem effects_nil (s : State) : effects [] s = s := rfl

@[simp] theorem effects_cons (i : Instr) (is : List Instr) (s : State) :
    effects (i :: is) s = effects is (effect i s) := rfl

theorem effects_append (is js : List Instr) (s : State) : effects (is ++ js) s = effects js (effects is s) := by
  induction is generalizing s with
  | nil => rfl
  | cons i is ih => simp only [List.cons_append, effects_cons, ih]

/-- A property that every command keeps holds after every list of commands. -/
theorem effects_induction {P : State → Prop} (is : List Instr) (keep : ∀ i ∈ is, ∀ s, P s → P (effect i s)) (s : State)
    (h : P s) : P (effects is s) := by
  induction is generalizing s with
  | nil => exact h
  | cons i is ih =>
    exact ih (fun j hj => keep j (List.mem_cons_of_mem _ hj)) _ (keep i (List.mem_cons_self ..) s h)

end Sys2Proof.Machine
end

