-- ==== Sys2Proof/Laws/Frames.lean ====
section
/-! SUPPORT. Which parts of the state a command leaves alone, command family by command family, and the read words as
numbers. -/

namespace Sys2Proof.Machine

/-- Servicing a source leaves every trigger kind (rule R215). -/
@[simp] theorem kindOf_service (src : Source) (s : State) (i : LineId) : kindOf (service src s) i = kindOf s i := by
  rw [service_frame]
  exact kindOf_congr rfl rfl rfl i

/-- Only `DISP` writes the clock, the gate and the timer configuration (rules R22 to R27). -/
theorem effect_clock {i : Instr} (s : State) (h : i ≠ .disp) :
    (effect i s).clock = s.clock ∧ (effect i s).gate = s.gate ∧ (effect i s).tcfg = s.tcfg := by
  cases i with
  | tick => simp only [effect]; split <;> simp [latchTick_eq]
  | line ln lv => cases hl : lineOf ln <;> simp [effect, sampleLine_eq, hl]
  | ecfg ln kd =>
    cases hl : lineOf ln with
    | none => simp [effect, hl]
    | some i => simp only [effect, hl, Option.elim]; rw [setSense_frame]; trivial
  | een ln => cases hl : lineOf ln <;> simp [effect, hl]
  | edis ln => cases hl : lineOf ln <;> simp [effect, hl]
  | disp => exact absurd rfl h
  | irqoff => trivial
  | irqon => trivial
  | scan => trivial
  | rd ad => trivial

/-- Only `SCAN` writes the scanner's registers (rules R36 to R39). -/
theorem effect_scanner {i : Instr} (s : State) (h : i ≠ .scan) :
    (effect i s).pos = s.pos ∧ (effect i s).sel = s.sel ∧ (effect i s).bcd = s.bcd ∧ (effect i s).vis = s.vis := by
  cases i with
  | tick => simp only [effect]; split <;> simp [latchTick_eq]
  | line ln lv => cases hl : lineOf ln <;> simp [effect, sampleLine_eq, hl]
  | ecfg ln kd =>
    cases hl : lineOf ln with
    | none => simp [effect, hl]
    | some i => simp only [effect, hl, Option.elim]; rw [setSense_frame]; trivial
  | een ln => cases hl : lineOf ln <;> simp [effect, hl]
  | edis ln => cases hl : lineOf ln <;> simp [effect, hl]
  | disp =>
    simp only [effect]
    split
    · cases selectSource s with
      | none => trivial
      | some src => simp only [Option.elim]; rw [service_frame]; trivial
    · trivial
  | scan => exact absurd rfl h
  | irqoff => trivial
  | irqon => trivial
  | rd ad => trivial

/-- A field placed in a read word is its value times the weight of its lowest bit. -/
theorem placeAt_toNat {n : Nat} (lo : Nat) (v : BitVec n) (h : n + lo ≤ 32) :
    (placeAt lo v).toNat = v.toNat * 2 ^ lo := by
  have hv := v.isLt
  have h32 : v.toNat * 2 ^ lo < 2 ^ 32 := by
    calc v.toNat * 2 ^ lo < 2 ^ n * 2 ^ lo := Nat.mul_lt_mul_of_pos_right hv (by positivity)
      _ = 2 ^ (n + lo) := (pow_add ..).symm
      _ ≤ 2 ^ 32 := Nat.pow_le_pow_right (by omega) h
  have hv32 : v.toNat < 2 ^ 32 := lt_of_lt_of_le hv (Nat.pow_le_pow_right (by omega) (by omega))
  simp only [placeAt, BitVec.toNat_shiftLeft, BitVec.toNat_setWidth, Nat.mod_eq_of_lt hv32, Nat.shiftLeft_eq,
    Nat.mod_eq_of_lt h32]

/-- A field joined to a word of lower fields adds its weighted value. -/
theorem or_placeAt_toNat {n : Nat} (lo : Nat) (a : ReadWord) (v : BitVec n) (h : n + lo ≤ 32)
    (ha : a.toNat < 2 ^ lo) : (a ||| placeAt lo v).toNat = a.toNat + v.toNat * 2 ^ lo := by
  rw [BitVec.toNat_or, placeAt_toNat lo v h, Nat.or_comm, ← Nat.shiftLeft_eq, ← Nat.shiftLeft_add_eq_or_of_lt ha,
    Nat.shiftLeft_eq, Nat.add_comm]

@[simp] theorem flagBit_toNat (b : Bool) : (flagBit b).toNat = b.toNat := by cases b <;> rfl

@[simp] theorem levelBit_toNat (lv : LineLevel) : (levelBit lv).toNat = levelCode lv := by cases lv <;> rfl

@[simp] theorem gateBit_toNat (g : Gate) : (gateBit g).toNat = if g = .running then 1 else 0 := by cases g <;> rfl

end Sys2Proof.Machine
end

