-- ==== Sys2Proof/Laws/PerInstr.lean ====
section
/-! SUPPORT. The family `OpcodeRow`: every command has its row of rule R73's map, and the word of a well-formed command
matches that row. -/

namespace Sys2Proof.Laws.OpcodeRow

/-- The command has a row of the opcode map, and its word matches the row (rule R73). -/
def Statement (i : Instr) : Prop :=
  ∃ r ∈ opcodeMap, r.mnemonic = i.mnemonic ∧ (i.wf = true → encode i &&& r.mask = r.pattern)

theorem tick : Statement .tick := ⟨⟨"TICK", 0x1000#16, 0xFFFF#16⟩, by decide, by decide, by decide⟩

theorem line (ln : Nat) (lv : LineLevel) : Statement (.line ln lv) := by
  refine ⟨⟨"LINE", 0x2000#16, 0xFFEC#16⟩, by decide, rfl, fun h => ?_⟩
  simp only [Instr.wf, lineNumberFits, decide_eq_true_eq] at h
  cases lv <;> interval_cases ln <;> decide

theorem ecfg (ln : Nat) (kd : TriggerKind) : Statement (.ecfg ln kd) := by
  refine ⟨⟨"ECFG", 0x3000#16, 0xFCFC#16⟩, by decide, rfl, fun h => ?_⟩
  simp only [Instr.wf, lineNumberFits, decide_eq_true_eq] at h
  cases kd <;> interval_cases ln <;> decide

theorem een (ln : Nat) : Statement (.een ln) := by
  refine ⟨⟨"EEN", 0x4000#16, 0xFFFC#16⟩, by decide, rfl, fun h => ?_⟩
  simp only [Instr.wf, lineNumberFits, decide_eq_true_eq] at h
  interval_cases ln <;> decide

theorem edis (ln : Nat) : Statement (.edis ln) := by
  refine ⟨⟨"EDIS", 0x5000#16, 0xFFFC#16⟩, by decide, rfl, fun h => ?_⟩
  simp only [Instr.wf, lineNumberFits, decide_eq_true_eq] at h
  interval_cases ln <;> decide

theorem irqoff : Statement .irqoff := ⟨⟨"IRQOFF", 0x6000#16, 0xFFFF#16⟩, by decide, by decide, by decide⟩

theorem irqon : Statement .irqon := ⟨⟨"IRQON", 0x7000#16, 0xFFFF#16⟩, by decide, by decide, by decide⟩

theorem disp : Statement .disp := ⟨⟨"DISP", 0x8000#16, 0xFFFF#16⟩, by decide, by decide, by decide⟩

theorem scan : Statement .scan := ⟨⟨"SCAN", 0x9000#16, 0xFFFF#16⟩, by decide, by decide, by decide⟩

theorem rd (ad : Nat) : Statement (.rd ad) := by
  refine ⟨⟨"RD", 0xA000#16, 0xFFF0#16⟩, by decide, rfl, fun h => ?_⟩
  simp only [Instr.wf, readAddressFits, decide_eq_true_eq] at h
  interval_cases ad <;> decide

end Sys2Proof.Laws.OpcodeRow
end

