-- ==== Sys2Proof/Tests/Slice0.lean ====
section
/-! SUPPORT. The model's own tests: ill-formed terms refused, words written out bit by bit from 30_encoding.md, one-step
vectors of 95_test_vectors.md (the expected values are the spec's), and a witness for the hypotheses of every statement that has
some. -/

namespace Sys2Proof.Tests

open Sys2Proof.Machine

/-- The next state of a command; none where it stops. -/
def after (i : Instr) (s : State) : Option State :=
  match exec i s with
  | .next t => some t
  | .fault _ => none
  | .refused _ => none

/-- "Reset with clock {sec, min, hour}" (95_test_vectors.md, Conventions). -/
def atClock (sec min hour : Nat) : State :=
  { State.reset with
    clock := { sec := BitVec.ofNat 6 sec, min := BitVec.ofNat 6 min, hour := BitVec.ofNat 5 hour } }

/-- Reset with all three lines latched and a tick pending: the start of 95_test_vectors.md L2.4, its clock {5,0,0}. -/
def allPending : State :=
  { atClock 5 0 0 with
    tickPend := true, pend := { l0 := true, l1 := true, l2 := true }, last := { l0 := .low, l1 := .low, l2 := .low } }

/-! ### WellFormed: each check refuses an ill-formed term -/

theorem test_wf_line : Instr.wf (.line 4 .low) = false ∧ Instr.wf (.line 3 .high) = true := by decide

theorem test_wf_ecfg : Instr.wf (.ecfg 4 .anyEdge) = false ∧ Instr.wf (.ecfg 3 .lowLevel) = true := by decide

theorem test_wf_een : Instr.wf (.een 4) = false ∧ Instr.wf (.een 3) = true := by decide

theorem test_wf_edis : Instr.wf (.edis 4) = false ∧ Instr.wf (.edis 3) = true := by decide

theorem test_wf_rd : Instr.wf (.rd 16) = false ∧ Instr.wf (.rd 15) = true := by decide

/-! ### Decoding: words written out from the encodings of rules R71 to R73 -/

theorem test_decode_tick : decode 0b0001_0000_0000_0000#16 = .ok .tick := by decide

theorem test_decode_line : decode 0b0010_0000_0001_0010#16 = .ok (.line 2 .high) ∧
    decode 0b0010_0000_0000_0001#16 = .ok (.line 1 .low) := by decide

theorem test_decode_ecfg : decode 0b0011_0011_0000_0010#16 = .ok (.ecfg 2 .risingEdge) ∧
    decode 0b0011_0010_0000_0001#16 = .ok (.ecfg 1 .fallingEdge) ∧
    decode 0b0011_0001_0000_0000#16 = .ok (.ecfg 0 .anyEdge) ∧
    decode 0b0011_0000_0000_0011#16 = .ok (.ecfg 3 .lowLevel) := by decide

theorem test_decode_een : decode 0b0100_0000_0000_0001#16 = .ok (.een 1) := by decide

theorem test_decode_edis : decode 0b0101_0000_0000_0011#16 = .ok (.edis 3) := by decide

theorem test_decode_irqoff : decode 0b0110_0000_0000_0000#16 = .ok .irqoff := by decide

theorem test_decode_irqon : decode 0b0111_0000_0000_0000#16 = .ok .irqon := by decide

theorem test_decode_disp : decode 0b1000_0000_0000_0000#16 = .ok .disp := by decide

theorem test_decode_scan : decode 0b1001_0000_0000_0000#16 = .ok .scan := by decide

theorem test_decode_rd : decode 0b1010_0000_0000_1011#16 = .ok (.rd 0xB) := by decide

/-- The refused words of 95_test_vectors.md L2.7 with a must-be-zero bit set. -/
theorem test_decode_mustBeZero :
    [0x1001#16, 0x2020#16, 0x2004#16, 0x3402#16, 0x3080#16, 0x4004#16, 0x6001#16, 0x8001#16, 0x9100#16,
      0xA010#16].map decode =
    [0x1, 0x2, 0x2, 0x3, 0x3, 0x4, 0x6, 0x8, 0x9, 0xA].map (fun op => .error (.mustBeZero op)) := by decide

/-- The reserved words of 95_test_vectors.md L2.7. -/
theorem test_decode_reserved :
    [0x0000#16, 0xB000#16, 0xC000#16, 0xD123#16, 0xE000#16, 0xF000#16, 0xFFFF#16].map decode =
    [0x0, 0xB, 0xC, 0xD, 0xE, 0xF, 0xF].map (fun op => .error (.reservedOpcode op)) := by decide

theorem test_decodeTableWord : decodeTableWord 16 0x3302 = some (.ecfg 2 .risingEdge) ∧
    decodeTableWord 16 0x2013 = some (.line 3 .high) ∧ decodeTableWord 16 0xB000 = none := by decide

theorem test_withFetchWord :
    step (State.reset.withFetchWord 16 0x1000) = .next { State.reset with tickPend := true } := rfl

/-- The line of the spec's listing `ECFG 2, RISE ; 0x3302`. -/
theorem test_assembleLine : (assembleLine "ECFG 2, RISE ; 0x3302".toList).map encode = some 0x3302#16 ∧
    (assembleLine "RD 0xC".toList).map encode = some 0xA00C#16 ∧ assembleLine "EEN 4".toList = none := by decide

/-- The word shorthand of 95_test_vectors.md. -/
theorem test_pseudo : wordsOf (pseudoPress 1) = [0x2001#16, 0x2011#16] ∧
    wordsOf pseudoSecond = [0x1000#16, 0x8000#16] ∧ wordsOf pseudoFrame = List.replicate 6 0x9000#16 ∧
    wordsOf (pseudoConfigure 2 .risingEdge) = [0x3302#16, 0x4002#16] ∧
    wordsOf (pseudoDeconfigure 1) = [0x5001#16] ∧ wordsOf pseudoSnapshot = [0xA003#16] := by decide

/-! ### One step of each command, from 95_test_vectors.md -/

/-- L2.1: the latch is set, then the overrun flag. -/
theorem test_tick_running :
    (after .tick State.reset).map (fun t => (t.tickPend, t.tickOvr)) = some (true, false) ∧
    (after .tick { State.reset with tickPend := true }).map (fun t => (t.tickPend, t.tickOvr)) = some (true, true) := by
  decide

/-- L2.1: while Paused nothing changes. -/
theorem test_tick_paused : exec .tick { State.reset with gate := .paused, tickOvr := true } =
    .next { State.reset with gate := .paused, tickOvr := true } := rfl

/-- L2.3: FALL, 1 to 0, latches; P6: a disarmed line records the level only. -/
theorem test_line : (after (.line 1 .low) State.reset).map (fun t => (t.pend.l1, t.last.l1)) = some (true, .low) ∧
    (after (.line 1 .low) { State.reset with en := { l0 := true, l1 := false, l2 := true } }).map
      (fun t => (t.pend.l1, t.last.l1)) = some (false, .low) := by decide

/-- L2.3: LOW requests while Low and sets no latch; RISE on line 2 latches on 0 to 1. -/
theorem test_line_kinds :
    (after (.line 0 .low) { State.reset with sense0 := .lowLevel }).map (fun t => (t.pend.l0, requestLine t .l0)) =
      some (false, true) ∧
    (after (.line 2 .high) { State.reset with sense2 := .rising, last := { l0 := .high, l1 := .high, l2 := .low } }).map
      (fun t => t.pend.l2) = some true := by decide

/-- L2.3: `ECFG 0, ANY`, and RD 0x6 then reads 0x00000009. -/
theorem test_ecfg : (after (.ecfg 0 .anyEdge) State.reset).map (fun t => (t.sense0, regRead t 0x6)) =
    some (.anyEdge, 0x00000009#32) := by decide

/-- L2.3: `ECFG 2, ANY` changes nothing, `ECFG 2, RISE` stores code 1. -/
theorem test_ecfg_line2 : exec (.ecfg 2 .anyEdge) State.reset = .next State.reset ∧
    (after (.ecfg 2 .risingEdge) State.reset).map (fun t => t.sense2) = some .rising := ⟨rfl, by decide⟩

/-- L2.3: SENSE[0] = 0, EN[0] = 0, LAST[0] = 0, then `EEN 0`: REQ_LINE(0) goes to 1 and PEND[0] stays 0. -/
theorem test_een : (after (.een 0) { State.reset with
    sense0 := .lowLevel, en := { l0 := false, l1 := true, l2 := true }, last := { l0 := .low, l1 := .high, l2 := .high } }).map
      (fun t => (t.en.l0, t.pend.l0, requestLine t .l0)) = some (true, false, true) := by decide

/-- L2.3: `LINE 1,0`; `EDIS 1`: the latch is discarded. -/
theorem test_edis : (after (.edis 1) { State.reset with pend := { l0 := false, l1 := true, l2 := false } }).map
    (fun t => (t.en.l1, t.pend.l1)) = some (false, false) := by decide

theorem test_irqoff : (after .irqoff State.reset).map (fun t => t.ie) = some false := by decide

theorem test_irqon : (after .irqon { State.reset with ie := false }).map (fun t => t.ie) = some true := by decide

/-- L2.4, DISP 1 of the four pending sources: L0 is serviced. -/
theorem test_disp_all : (after .disp allPending).map (fun t => (t.clock, t.pend, t.tickPend, t.gate)) =
    some ({ sec := 0, min := 0, hour := 0 }, { l0 := false, l1 := true, l2 := true }, false, .running) := by decide

/-- L1.4: the tick at {59,59,23} gives {0,0,0}. -/
theorem test_disp_rollover : (after .disp { atClock 59 59 23 with tickPend := true }).map (fun t => (t.clock, t.tickPend)) =
    some ({ sec := 0, min := 0, hour := 0 }, false) := by decide

/-- L2.5: {7,45,3} at POS 3, with RD 0x7 after. -/
theorem test_scan : (after .scan { atClock 7 45 3 with pos := .minutesTens }).map
    (fun t => (t.sel, t.bcd, t.pos, t.vis.p3, regRead t 0x7)) =
      some (0x08#6, 4#4, .hoursOnes, 4#4, 0x00040804#32) := by decide

/-- L2.5: {59,59,23} at POS 5. -/
theorem test_scan_last : (after .scan { atClock 59 59 23 with pos := .hoursTens }).map (fun t => (t.sel, t.pos, regRead t 0x7)) =
    some (0x20#6, .secondsOnes, 0x00022000#32) := by decide

/-- L2.6: the packing of RD 0x3. -/
theorem test_rd_clock : (after (.rd 0x3) (atClock 7 45 3)).map (fun t => t.rdata) = some 0x00032D07#32 ∧
    (after (.rd 0x3) (atClock 59 59 23)).map (fun t => t.rdata) = some 0x00173B3B#32 := by decide

/-- L2.4: RD 0x4 with all four sources pending; P6: RD 0x5 with line 1 last Low. -/
theorem test_rd_ctrl : regRead allPending 0x4 = 0x000000F7#32 ∧
    regRead { State.reset with last := { l0 := .high, l1 := .low, l2 := .high } } 0x5 = 0x00000507#32 := by decide

/-- L1.6: the digits of {7,45,3}, RD 0x8 of its frame, and the frame read as a display, 03:45:07. -/
theorem test_display :
    let s := { atClock 7 45 3 with vis := displayFrame { sec := 7, min := 45, hour := 3 } }
    s.vis = { p0 := 7, p1 := 0, p2 := 5, p3 := 4, p4 := 3, p5 := 0 } ∧ regRead s 0x8 = 0x00034507#32 ∧
      displayReading s = [0, 3, 4, 5, 0, 7] := by decide

/-- R113: the outputs to the timer; C1: the tick period is 1.001 s. -/
theorem test_outputs : armedOutput State.reset = true ∧ armedOutput { State.reset with gate := .paused } = false ∧
    Config.tickPeriodMicros = 1001000 := by decide

theorem test_cfgOutput : (cfgOutput State.reset).tcmp = 1000#16 := rfl

/-! ### Witnesses: the hypotheses of each statement met together, clause by clause -/

theorem witness_StepRunsTheDecodedCommand : ∃ s : State, s.port = [0x9000#16] ∧ s.refused = false ∧
    s.clock.valid = true ∧ decode 0x9000#16 = .ok .scan :=
  ⟨{ atClock 59 59 23 with port := [0x9000#16] }, by decide⟩

theorem witness_NoWordNoChange : State.reset.port = [] := rfl

theorem witness_PlacedWordRunsNext : Instr.wf (.rd 15) = true ∧ (atClock 59 59 23).refused = false ∧
    (atClock 59 59 23).clock.valid = true := by decide

/-- Both clauses of RefusedWordMarksTheRun. -/
theorem witness_RefusedWordMarksTheRun :
    (∃ s : State, s.port = [0xB000#16] ∧ s.refused = false ∧ ∃ e, decode 0xB000#16 = .error e) ∧
    (∃ s : State, s.port = [0x1000#16] ∧ s.refused = true) :=
  ⟨⟨{ State.reset with port := [0xB000#16] }, rfl, rfl, .reservedOpcode 0xB, by decide⟩,
    ⟨{ State.reset with port := [0x1000#16], refused := true }, rfl, rfl⟩⟩

/-- Both clauses of ClockInvariantIsKeptOrRefused, at the clock's upper bound and just above each field's. -/
theorem witness_ClockInvariantIsKeptOrRefused :
    (∃ s t : State, s.clock = { sec := 59, min := 59, hour := 23 } ∧ s.clock.valid = true ∧ step s = .next t) ∧
    (∀ c ∈ [(⟨60, 0, 0⟩ : ClockValue), ⟨0, 60, 0⟩, ⟨0, 0, 24⟩],
      ¬(c.sec.toNat ≤ 59 ∧ c.min.toNat ≤ 59 ∧ c.hour.toNat ≤ 23)) ∧
    (∃ s : State, s.port = [0x1000#16] ∧ s.refused = false ∧ s.clock = ⟨60, 0, 0⟩) :=
  ⟨⟨{ atClock 59 59 23 with tickPend := true, port := [0x8000#16] }, _, rfl, by decide, rfl⟩, by decide,
    ⟨{ atClock 60 0 0 with port := [0x1000#16] }, rfl, rfl, rfl⟩⟩

theorem witness_NothingTraps : State.reset.refused = false := rfl

/-- Both clauses of ReservedAndMalformedWordsAreRefused, with every opcode that reserves a bit. -/
theorem witness_ReservedAndMalformedWordsAreRefused :
    (∀ w ∈ [0x0000#16, 0xB000#16, 0xFFFF#16],
      (w.extractLsb' 12 4).toNat ∈ [0x0, 0xB, 0xC, 0xD, 0xE, 0xF]) ∧
    (∀ w ∈ [0x1001#16, 0x2020#16, 0x3402#16, 0x4004#16, 0x5004#16, 0x6001#16, 0x7800#16, 0x8001#16, 0x9100#16, 0xA010#16],
      (w.extractLsb' 12 4).toNat ∉ [0x0, 0xB, 0xC, 0xD, 0xE, 0xF] ∧
      ∀ r ∈ opcodeMap, w &&& r.mask ≠ r.pattern) := by
  constructor <;> simp [opcodeMap]

theorem witness_OpcodeMapDecides : ∀ r ∈ opcodeMap, r.pattern &&& r.mask = r.pattern := by decide

theorem witness_DecodeOfEncode : ∀ i ∈ [Instr.line 3 .high, .ecfg 3 .risingEdge, .een 3, .edis 0, .rd 15, .tick],
    i.wf = true := by decide

theorem witness_EncodeOfDecode : decode 0x3303#16 = .ok (.ecfg 3 .risingEdge) := by decide

theorem witness_AssembledLineIsTheCommand : Instr.wf (.ecfg 2 .risingEdge) = true := by decide

/-- The three clauses of TickLatchesOrIsIgnored, and its words. -/
theorem witness_TickLatchesOrIsIgnored :
    (State.reset.gate = .running ∧ State.reset.tickPend = false) ∧
    (allPending.gate = .running ∧ allPending.tickPend = true) ∧
    (∃ s : State, s.gate = .paused) ∧ 0x1000#16 &&& 0xF000#16 = 0x1000#16 ∧
    (0x1000#16).extractLsb' 12 4 = 1#4 ∧ (0x1001#16).extractLsb' 12 4 = 1#4 :=
  ⟨by decide, by decide, ⟨{ State.reset with gate := .paused }, rfl⟩, by decide, by decide, by decide⟩

/-- The four clauses of AdvanceIsOneSecondModuloADay, at the carries. -/
theorem witness_AdvanceIsOneSecondModuloADay :
    (∀ c ∈ [(⟨58, 59, 23⟩ : ClockValue), ⟨59, 58, 23⟩, ⟨59, 59, 22⟩, ⟨59, 59, 23⟩],
      c.sec.toNat ≤ 59 ∧ c.min.toNat ≤ 59 ∧ c.hour.toNat ≤ 23) ∧
    (advanceValue ⟨58, 59, 23⟩ = ⟨59, 59, 23⟩ ∧ advanceValue ⟨59, 58, 23⟩ = ⟨0, 59, 23⟩ ∧
      advanceValue ⟨59, 59, 22⟩ = ⟨0, 0, 23⟩ ∧ advanceValue ⟨59, 59, 23⟩ = ⟨0, 0, 0⟩) := by decide

/-- The clauses of ResetHandlerZeroesTheClock. -/
theorem witness_ResetHandlerZeroesTheClock :
    (allPending.ie = true ∧ requestLine allPending .l0 = true) ∧
    (∃ t, exec .disp allPending = .next t ∧ t.clock ≠ allPending.clock) :=
  ⟨by decide, _, rfl, by decide⟩

/-- Reset, Running, with the Pause line latched. -/
def pausePending : State := { State.reset with pend := { l0 := false, l1 := true, l2 := false } }

/-- Reset, with the Resume line latched. -/
def resumePending : State := { State.reset with pend := { l0 := false, l1 := false, l2 := true } }

/-- `resumePending` while Paused. -/
def pausedResumePending : State := { resumePending with gate := .paused }

/-- `pausePending` while Paused. -/
def pausedPausePending : State := { pausePending with gate := .paused }

/-- Every state that differs from reset in the clock's value, the gate and the latches alone meets the invariants where
no tick is latched. -/
theorem inv_of_reset (g : Gate) (p : PerLine Bool) (w : List Word) :
    BlockInv { State.reset with gate := g, pend := p, port := w } where
  tick_needs_running := by intro h; cases h
  disarmed_has_no_latch := by intro i h; cases i <;> cases h
  pos_legal := Nat.zero_le 5
  sel_legal := .inl rfl
  cfg_constant := rfl
  clock_valid := rfl
  bcd_digit := Nat.zero_le 9
  vis_digit_or_blank := by intro p; cases p <;> exact .inr rfl

/-- The clauses of PauseHandlerStopsTheTicks. -/
theorem witness_PauseHandlerStopsTheTicks :
    (pausePending.ie = true ∧ requestLine pausePending .l0 = false ∧ requestLine pausePending .l1 = true) ∧
    (pausedPausePending.ie = true ∧ requestLine pausedPausePending .l0 = false ∧
      requestLine pausedPausePending .l1 = true ∧ pausedPausePending.gate = .paused ∧ BlockInv pausedPausePending) ∧
    (∃ t, exec .disp pausePending = .next t ∧ t.gate ≠ pausePending.gate) :=
  ⟨by decide, ⟨rfl, by decide, by decide, rfl, inv_of_reset _ _ _⟩, _, rfl, by decide⟩

/-- The clauses of ResumeHandlerRestoresTheConfiguration, the changed configuration among them. -/
theorem witness_ResumeHandlerRestoresTheConfiguration :
    (resumePending.ie = true ∧ requestLine resumePending .l0 = false ∧ requestLine resumePending .l1 = false ∧
      requestLine resumePending .l2 = true ∧ resumePending.gate = .running ∧ BlockInv resumePending) ∧
    (∃ t, exec .disp pausedResumePending = .next t ∧ t.gate ≠ pausedResumePending.gate) ∧
    (∃ s t : State, exec .disp s = .next t ∧ t.tcfg ≠ s.tcfg) :=
  ⟨⟨rfl, by decide, by decide, by decide, rfl, inv_of_reset _ _ _⟩, ⟨_, rfl, by decide⟩,
    ⟨{ resumePending with tcfg := ⟨0, 0, 0, 0⟩ }, _, rfl, fun h => absurd (congrArg TimerCfg.tcmp h) (by decide)⟩⟩

/-- Reset at {59,59,23} with a tick latched. -/
def lastTick : State := { atClock 59 59 23 with tickPend := true }

theorem noLineRequest_of_reset (c : ClockValue) (b : Bool) (w : List Word) :
    noLineRequest { State.reset with clock := c, tickPend := b, port := w } := by
  intro i
  cases i <;> rfl

theorem witness_TickHandlerAdvancesTheClock :
    (lastTick.ie = true ∧ noLineRequest lastTick ∧ lastTick.tickPend = true ∧ lastTick.clock.valid = true) ∧
    (∃ t, exec .disp lastTick = .next t ∧ t.clock ≠ lastTick.clock) :=
  ⟨⟨rfl, noLineRequest_of_reset _ _ _, rfl, by decide⟩, _, rfl, by decide⟩

/-- The clauses of GateStateMachine. -/
theorem witness_GateStateMachine :
    (∃ t, exec .disp pausePending = .next t ∧ pausePending.gate = .running ∧ t.gate = .paused) ∧
    (∃ t, exec .disp pausedResumePending = .next t ∧ pausedResumePending.gate = .paused ∧ t.gate = .running) ∧
    (BlockInv pausedPausePending ∧ pausedPausePending.gate = .paused) ∧
    (BlockInv resumePending ∧ resumePending.gate = .running) :=
  ⟨⟨_, rfl, rfl, rfl⟩, ⟨_, rfl, rfl, rfl⟩, ⟨inv_of_reset _ _ _, rfl⟩, ⟨inv_of_reset _ _ _, rfl⟩⟩

theorem witness_CountingLaw (n : Nat) : ∃ s : State, s.clock = { sec := 0, min := 0, hour := 0 } ∧
    s.gate = .running ∧ s.tickPend = false ∧ s.ie = true ∧ noLineRequest s ∧ s.refused = false ∧
    s.port = wordsOf (repeatBlock n pseudoSecond) :=
  ⟨{ State.reset with port := wordsOf (repeatBlock n pseudoSecond) }, rfl, rfl, rfl, rfl,
    noLineRequest_of_reset _ _ _, rfl, rfl⟩

/-- One second and a Pause press; a tick, the Pause pressed again and a `DISP` while Paused; then a Resume press. -/
theorem witness_PauseResumeLaw : ∃ (s v x : State) (k : Nat) (pausing paused resuming : List Instr),
    s.gate = .running ∧ s.tickPend = false ∧ s.ie = true ∧ noLineRequest s ∧
    (∀ i ∈ pausing, ∃ ln lv, i = .line ln lv) ∧ (∀ i ∈ paused, i = .tick ∨ i = .disp ∨ ∃ lv, i = .line 1 lv) ∧
    (∀ i ∈ resuming, ∃ ln lv, i = .line ln lv) ∧
    execAll (repeatBlock k pseudoSecond ++ pausing) s = .next v ∧
    selectSource v = some (.line .l1) ∧ requestLine (service (.line .l1) v) .l0 = false ∧
    requestLine (service (.line .l1) v) .l2 = false ∧
    execAll (paused ++ resuming) (service (.line .l1) v) = .next x ∧
    selectSource x = some (.line .l2) ∧ noLineRequest (service (.line .l2) x) :=
  ⟨State.reset, _, _, 1, [.line 1 .low, .line 1 .high], [.tick, .line 1 .low, .line 1 .high, .disp],
    [.line 2 .low, .line 2 .high], rfl, rfl, rfl, noLineRequest_of_reset _ _ _, by simp, by simp, by simp, rfl, by decide,
    rfl, rfl, rfl, by decide, by intro i; cases i <;> rfl⟩

theorem witness_PausedTicksAreIgnored : ∃ (s : State) (is : List Instr), s.gate = .paused ∧ s.tickPend = false ∧
    noLineRequest s ∧ is = [.tick, .tick, .disp] ∧ ∀ i ∈ is, i = .tick ∨ i = .disp :=
  ⟨{ State.reset with gate := .paused }, _, rfl, rfl, by intro i; cases i <;> rfl, rfl, by decide⟩

/-- The word clauses of the four statements on the edge lines. -/
theorem witness_LineWords :
    (lineOf 0 = some .l0 ∧ lineOf 1 = some .l1 ∧ lineOf 2 = some .l2) ∧
    (∀ w ∈ [0x2012#16, 0x2020#16], w.extractLsb' 12 4 = 2#4) ∧
    ((0x2020#16).extractLsb' 5 7 ≠ 0#7 ∧ (0x2004#16).extractLsb' 2 2 ≠ 0#2) ∧
    (∀ w ∈ [0x3302#16, 0x3402#16], w.extractLsb' 12 4 = 3#4) ∧
    ((0x3402#16).extractLsb' 10 2 ≠ 0#2 ∧ (0x3080#16).extractLsb' 2 6 ≠ 0#6) ∧
    (∀ w ∈ [0x4001#16, 0x4004#16], w.extractLsb' 12 4 = 4#4) ∧ (0x4004#16).extractLsb' 2 10 ≠ 0#10 ∧
    (∀ w ∈ [0x5001#16, 0x5004#16], w.extractLsb' 12 4 = 5#4) ∧ (0x5004#16).extractLsb' 2 10 ≠ 0#10 := by simp [lineOf]

/-- The LowLevel clause of ArmingSetsNoLatch: line 0 LowLevel, its last level Low. -/
theorem witness_ArmingSetsNoLatch : ∃ s : State, lineOf 0 = some .l0 ∧ kindOf s .l0 = .lowLevel ∧ s.last.get .l0 = .low :=
  ⟨{ State.reset with sense0 := .lowLevel, last := { l0 := .low, l1 := .high, l2 := .high } }, rfl, rfl, rfl⟩

/-- The four clauses of EdgeTable, on line 0. -/
theorem witness_EdgeTable : ∀ kd : TriggerKind, ∃ s t : State, lineOf 0 = some .l0 ∧ s.en.get .l0 = true ∧
    s.pend.get .l0 = false ∧ exec (.line 0 .low) s = .next t ∧ kindOf s .l0 = kd :=
  fun kd => ⟨{ State.reset with sense0 := kd }, _, rfl, rfl, rfl, exec_eq_effect _ _, rfl⟩

theorem witness_CleanPressesMergeIntoOneRequest : ∃ (s : State) (is : List Instr), lineOf 1 = some .l1 ∧
    s.en.get .l1 = true ∧ kindOf s .l1 = .fallingEdge ∧ s.last.get .l1 = .high ∧ noBounce is ∧
    is = pseudoPress 1 ++ pseudoPress 1 ∧ ∀ c ∈ is, ∃ lv, c = .line 1 lv := by
  refine ⟨State.reset, pseudoPress 1 ++ pseudoPress 1, rfl, rfl, rfl, rfl, fun ln => ?_, rfl, by simp [pseudoPress]⟩
  by_cases h : 1 = ln
  · subst h; rfl
  · simp [pseudoPress, samplesOf, h, wholePresses]

/-- The six clauses of DispatchServicesTheFirstRequest, and its words. -/
theorem witness_DispatchServicesTheFirstRequest :
    (∃ s : State, s.ie = false) ∧ (allPending.ie = true ∧ requestLine allPending .l0 = true) ∧
    (pausePending.ie = true ∧ requestLine pausePending .l0 = false ∧ requestLine pausePending .l1 = true) ∧
    (resumePending.ie = true ∧ requestLine resumePending .l0 = false ∧ requestLine resumePending .l1 = false ∧
      requestLine resumePending .l2 = true) ∧
    (lastTick.ie = true ∧ noLineRequest lastTick ∧ lastTick.tickPend = true) ∧
    (State.reset.ie = true ∧ noLineRequest State.reset ∧ State.reset.tickPend = false) ∧
    (∀ w ∈ [0x8000#16, 0x8001#16], w.extractLsb' 12 4 = 8#4) :=
  ⟨⟨{ State.reset with ie := false }, rfl⟩, by decide, by decide, by decide,
    ⟨rfl, noLineRequest_of_reset _ _ _, rfl⟩, ⟨rfl, noLineRequest_of_reset _ _ _, rfl⟩, by simp⟩

/-- The word clauses of MaskCommandsWriteOnlyTheEnable, ScanVisitsOnePosition and ReadSpaceMap. -/
theorem witness_CommandWords : (∀ w ∈ [0x6000#16, 0x6001#16], w.extractLsb' 12 4 = 6#4) ∧
    (∀ w ∈ [0x7000#16, 0x7800#16], w.extractLsb' 12 4 = 7#4) ∧
    (∀ w ∈ [0x9000#16, 0x9100#16], w.extractLsb' 12 4 = 9#4) ∧
    (∀ w ∈ [0xA00F#16, 0xA010#16], w.extractLsb' 12 4 = 10#4) ∧ (0xA010#16).extractLsb' 4 8 ≠ 0#8 := by simp

/-- Masked, with a tick and the Pause line latched, and no `IRQON` nor `EDIS` among the commands. -/
theorem witness_MaskedBlockRunsNoHandler : ∃ (s t : State) (is : List Instr), s.ie = false ∧ .irqon ∉ is ∧
    execAll is s = .next t ∧ s.tickPend = true ∧ s.pend.get .l1 = true ∧
    (∀ ln, lineOf ln = some .l1 → .edis ln ∉ is) ∧ .disp ∈ is :=
  ⟨{ pausePending with ie := false, tickPend := true }, _, [.disp, .line 0 .low, .disp], rfl, by decide,
    execAll_eq_effects _ _, rfl, rfl, by simp, by decide⟩

/-- Both clauses of AtMostOneLatchRises. -/
theorem witness_AtMostOneLatchRises :
    (∃ t, exec .tick State.reset = .next t ∧ State.reset.tickPend = false ∧ t.tickPend = true) ∧
    (∃ t, exec (.line 2 .low) State.reset = .next t ∧ State.reset.pend.get .l2 = false ∧ t.pend.get .l2 = true) :=
  ⟨⟨_, rfl, rfl, rfl⟩, ⟨_, rfl, rfl, rfl⟩⟩

/-- Both races of PriorityDecidesTwoRaces. -/
theorem witness_PriorityDecidesTwoRaces :
    (∃ s : State, s.ie = true ∧ requestLine s .l0 = false ∧ s.en.l1 = true ∧ s.pend.l1 = true ∧
      ¬(s.sense1 = .lowLevel ∧ s.last.l1 = .low) ∧ requestLine s .l2 = false ∧ s.tickPend = true) ∧
    (∃ s : State, s.ie = true ∧ requestLine s .l0 = false ∧ s.en.l1 = true ∧ s.pend.l1 = true ∧
      ¬(s.sense1 = .lowLevel ∧ s.last.l1 = .low) ∧ s.en.l2 = true ∧ s.pend.l2 = true) :=
  ⟨⟨{ pausePending with tickPend := true }, by decide⟩,
    ⟨{ State.reset with pend := { l0 := false, l1 := true, l2 := true } }, by decide⟩⟩

theorem witness_HeldLowLineStarvesTheTick : ∃ (s t : State) (is : List Instr), s.en.get .l1 = true ∧
    kindOf s .l1 = .lowLevel ∧ s.last.get .l1 = .low ∧ is = [.tick, .disp, .line 2 .low, .disp] ∧
    (∀ i ∈ is, ∀ ln lv kd, lineOf ln = some .l1 → i ≠ .line ln lv ∧ i ≠ .ecfg ln kd ∧ i ≠ .edis ln) ∧
    execAll is s = .next t ∧ t.ie = true := by
  refine ⟨{ State.reset with sense1 := .lowLevel, last := { l0 := .high, l1 := .low, l2 := .high } }, _, _, rfl, rfl, rfl, rfl,
    ?_, execAll_eq_effects _ _, by decide⟩
  intro i hi ln lv kd hl
  simp only [List.mem_cons, List.not_mem_nil, or_false] at hi
  rcases hi with rfl | rfl | rfl | rfl <;> simp
  rintro rfl
  cases hl

/-- Each clause of OnlyTheirWritersChangeRegisters: a command that changes the register. -/
theorem witness_OnlyTheirWritersChangeRegisters :
    ((effect .disp lastTick).clock ≠ lastTick.clock ∧ (effect .disp pausePending).gate ≠ pausePending.gate ∧
      (effect .tick State.reset).tickPend ≠ State.reset.tickPend ∧
      (effect .tick lastTick).tickOvr ≠ lastTick.tickOvr ∧ (effect .irqoff State.reset).ie ≠ State.reset.ie ∧
      (effect (.edis 0) State.reset).en ≠ State.reset.en ∧
      kindOf (effect (.ecfg 2 .risingEdge) State.reset) .l2 ≠ kindOf State.reset .l2 ∧
      (effect (.line 2 .low) State.reset).pend ≠ State.reset.pend ∧
      (effect (.line 2 .low) State.reset).last ≠ State.reset.last ∧ (effect .scan State.reset).pos ≠ State.reset.pos ∧
      (effect (.rd 4) State.reset).rdata ≠ State.reset.rdata) ∧
    ∃ s : State, (effect .disp s).tcfg ≠ s.tcfg :=
  ⟨by decide, { resumePending with tcfg := ⟨0, 0, 0, 0⟩ }, fun h => absurd (congrArg TimerCfg.tcmp h) (by decide)⟩

theorem witness_OnlyTheInterruptUnitChangesClockAndGate : ∃ (s t : State) (is : List Instr),
    is = [.tick, .line 0 .low, .scan, .rd 3, .edis 1] ∧ (∀ i ∈ is, i.agent ≠ .interruptUnit) ∧
    execAll is s = .next t :=
  ⟨State.reset, _, _, rfl, by decide, execAll_eq_effects _ _⟩

theorem witness_DigitOfEachPosition : ClockValue.valid ⟨59, 59, 23⟩ = true := by decide

/-- Visits leave the clock alone, so every part of a row of visits does. -/
theorem scans_keep_clock (n : Nat) (s : State) :
    ∀ js, js <+: List.replicate n .scan → ∀ u, execAll js s = .next u → u.clock = s.clock := by
  intro js hjs u hu
  rw [execAll_next_iff] at hu
  subst hu
  refine effects_induction (P := fun u => u.clock = s.clock) js (fun i hi u hu => ?_) s rfl
  have : i = .scan := List.eq_of_mem_replicate (hjs.subset hi)
  subst this
  exact hu

theorem witness_FrameProjectsTheClock : ∃ (s t : State) (is : List Instr), s.pos = .secondsOnes ∧
    is.count .scan = 6 ∧ (∀ js, js <+: is → ∀ u, execAll js s = .next u → u.clock = s.clock) ∧
    execAll is s = .next t ∧ s.clock = ⟨7, 45, 3⟩ :=
  ⟨atClock 7 45 3, _, pseudoFrame, rfl, by decide, scans_keep_clock 6 _, execAll_eq_effects _ _, rfl⟩

/-- P3: one visit, a tick serviced at {59,0,0}, five visits. -/
theorem witness_TornFrameMixesTwoClocks : ∃ (s t : State) (before after : List Instr), s.pos = .secondsOnes ∧
    .disp ∉ before ∧ .disp ∉ after ∧ before.count .scan + after.count .scan = 6 ∧
    execAll (before ++ [.disp] ++ after) s = .next t ∧ t.clock ≠ s.clock :=
  ⟨atClock 59 0 0, _, [.scan, .tick], List.replicate 5 .scan, rfl, by decide, by decide, by decide,
    execAll_eq_effects _ _, by decide⟩

theorem witness_TornFrameHeals : ∃ (s t : State) (is : List Instr), 6 ≤ is.count .scan ∧
    (∀ js, js <+: is → ∀ u, execAll js s = .next u → u.clock = s.clock) ∧ execAll is s = .next t ∧
    s.vis ≠ displayFrame s.clock ∧ s.pos = .minutesOnes :=
  ⟨{ atClock 0 1 0 with pos := .minutesOnes, vis := ⟨9, 0, 1, 0, 0, 0⟩ }, _, pseudoFrame, by decide,
    scans_keep_clock 6 _, execAll_eq_effects _ _, by decide, rfl⟩

theorem witness_ReadsHaveNoSideEffect : ∃ t, exec (.rd 4) allPending = .next t := ⟨_, rfl⟩

theorem witness_StepKeepsTheInvariants : ∃ s t : State, BlockInv s ∧ step s = .next t ∧ s.port = [0x8000#16] :=
  ⟨{ pausePending with port := [0x8000#16] }, _, inv_of_reset _ _ _, rfl, rfl⟩

/-- A reachable state with a history: a `SCAN` was presented and run. -/
theorem witness_ReachableStatesMeetRuleR43 : ∃ h s, Reachable h s ∧ visited h .secondsOnes ∧ s.vis.p0 = 0#4 :=
  ⟨_, _, .step (.present 0x9000#16 (.reset Config.defaultReset)) rfl, ⟨_, List.mem_singleton.mpr rfl, rfl⟩, rfl⟩

/-- A word that decodes, presented to a run that still has a meaning, runs. -/
theorem runWord_of_decode {w : Word} {i : Instr} {s : State} (hd : decode w = .ok i) (hr : s.refused = false)
    (hv : s.clock.valid = true) : runWord w s = .next (effect i s) := by
  simp only [runWord, hr, hv, hd, exec_eq_effect, Bool.false_eq_true, if_false, if_true]

/-- A schedule of one command, repeated for ever, whose effect keeps `P`. -/
theorem constant_schedule {P : State → Prop} {i : Instr} (hd : decode (encode i) = .ok i)
    (hp : ∀ u, P u → u.refused = false ∧ u.clock.valid = true ∧ P (effect i u)) {s : State} (h : P s) (n : Nat) :
    ∃ u, stateAt s (fun _ => encode i) n = some u ∧ P u := by
  induction n with
  | zero => exact ⟨s, rfl, h⟩
  | succ n ih =>
    obtain ⟨u, hu, hpu⟩ := ih
    exact ⟨effect i u, by simp only [stateAt, hu, runWord_of_decode hd (hp u hpu).1 (hp u hpu).2.1], (hp u hpu).2.2⟩

theorem witness_EveryPositionIsVisitedForever : ∃ (s : State) (words : Nat → Word),
    meaningfulRun s words ∧ scannerProgress words :=
  ⟨State.reset, fun _ => encode .scan, fun n => by
    obtain ⟨u, hu, hp⟩ := constant_schedule (P := fun u => u.refused = false ∧ u.clock.valid = true) (i := .scan)
      (by decide) (fun u h => ⟨h.1, h.2, h⟩) (s := State.reset) (by decide) n
    exact ⟨u, hu, hp.1⟩, fun n => ⟨n, le_rfl, rfl⟩⟩

/-- The Reset line latched, and `DISP` presented for ever. -/
theorem witness_LatchedResetIsServed : ∃ (s : State) (words : Nat → Word), meaningfulRun s words ∧
    interruptService s words ∧ stateAt s words 0 = some s ∧ s.ie = true ∧ s.en.l0 = true ∧ s.pend.l0 = true ∧
    ∀ m, 0 ≤ m → words m ≠ encode .irqoff ∧ words m ≠ encode (.edis 0) :=
  ⟨allPending, fun _ => encode .disp, fun n => by
    obtain ⟨u, hu, hp⟩ := constant_schedule (P := fun u => u.refused = false ∧ u.clock.valid = true) (i := .disp)
      (by decide) (fun u h => ⟨h.1, h.2, by
        simp only [effect]
        split
        · cases selectSource u with
          | none => exact h
          | some src =>
            simp only [Option.elim, service_eq]
            rcases src with (_ | _ | _) | _
            · exact ⟨h.1, rfl⟩
            · exact h
            · exact h
            · exact ⟨h.1, advanceValue_valid h.2⟩
        · exact h⟩) (s := allPending) (by decide) n
    exact ⟨u, hu, hp.1⟩, fun n u _ _ _ => ⟨n, le_rfl, rfl⟩, rfl, rfl, rfl, rfl, fun _ _ =>
    (by decide : encode .disp ≠ encode .irqoff ∧ encode .disp ≠ encode (.edis 0))⟩

/-- `TICK` and `DISP` presented by turns. -/
def secondsForever (n : Nat) : Word := if n % 2 = 0 then encode .tick else encode .disp

/-- Along `secondsForever` from reset the tick is latched after each `TICK` and serviced by each `DISP`. -/
theorem secondsForever_state (n : Nat) : ∃ c : ClockValue, c.valid = true ∧
    stateAt State.reset secondsForever n = some { State.reset with clock := c, tickPend := decide (n % 2 = 1) } := by
  induction n with
  | zero => exact ⟨⟨0, 0, 0⟩, by decide, rfl⟩
  | succ n ih =>
    obtain ⟨c, hc, hs⟩ := ih
    rcases Nat.mod_two_eq_zero_or_one n with h | h
    · refine ⟨c, hc, ?_⟩
      have h1 : (n + 1) % 2 = 1 := by omega
      simp only [stateAt, hs, secondsForever, h, h1, if_true]
      rw [runWord_of_decode (i := .tick) (by decide) rfl hc]
      rfl
    · refine ⟨advanceValue c, advanceValue_valid hc, ?_⟩
      have h1 : (n + 1) % 2 = 0 := by omega
      simp only [stateAt, hs, secondsForever, h, h1, Nat.one_ne_zero, if_false]
      rw [runWord_of_decode (i := .disp) (by decide) rfl hc]
      rfl

theorem witness_NoOverrunNoLostTick : ∃ (s : State) (words : Nat → Word), s.tickPend = false ∧ noTickOverrun s words ∧
    words 0 = encode .tick ∧ words 2 = encode .tick := by
  refine ⟨State.reset, secondsForever, rfl, fun a b u v hab ha hb _ _ _ _ => ?_, rfl, rfl⟩
  have even : ∀ k, secondsForever k = encode .tick → k % 2 = 0 := by
    intro k hk
    by_contra hne
    rw [secondsForever, if_neg hne] at hk
    exact absurd hk (by decide)
  have ha2 := even a ha
  have hb2 := even b hb
  obtain ⟨c, -, hs⟩ := secondsForever_state (a + 1)
  have h1 : (a + 1) % 2 = 1 := by omega
  refine ⟨a + 1, _, by omega, by omega, ?_, hs, rfl, ?_⟩
  · rw [secondsForever, if_neg (by omega)]
  · rw [h1]; rfl

end Sys2Proof.Tests
end

/-! PROOFS. The state (10_state.md): the reset table of rule R42, and rule R43 over the reachable states. Each operation
over the registers keeps the invariants; so does a command, and so does a step. Part (g) speaks of the history, and rests
on what one step does to `VIS[p]`. -/
namespace Sys2Proof.Machine

/-! ### Every operation keeps the invariants of rule R43 -/

/-- Rule R42's state meets the invariants, for every choice of the OPEN parameters. -/
theorem blockInv_resetWith (p : ResetParams) : BlockInv (State.resetWith p) where
  tick_needs_running := fun _ => rfl
  disarmed_has_no_latch := by intro i _; cases i <;> rfl
  pos_legal := Nat.zero_le 5
  sel_legal := .inl rfl
  cfg_constant := rfl
  clock_valid := rfl
  bcd_digit := Nat.zero_le 9
  vis_digit_or_blank := by intro q; cases q <;> exact .inr rfl

section
variable {s : State} (h : BlockInv s)
include h

theorem latchTick_keeps_blockInv (hg : s.gate = .running) : BlockInv (latchTick s) := by
  rw [latchTick_eq]
  exact { h with tick_needs_running := fun _ => hg }

/-- A sample latches an edge only while its line is armed, so part (b) stays. -/
theorem sampleLine_keeps_blockInv (i : LineId) (lv : LineLevel) : BlockInv (sampleLine i lv s) := by
  rw [sampleLine_eq]
  refine { h with disarmed_has_no_latch := fun j hj => ?_ }
  have hpend := h.disarmed_has_no_latch j hj
  by_cases hi : j = i
  · subst hi
    simp only [show s.en.get j = false from hj, Bool.false_and, Bool.false_eq_true, if_false, hpend]
  · simp only [apply_ite (PerLine.get · j), PerLine.get_set_ne s.pend true hi, ite_self, hpend]

theorem setSense_keeps_blockInv (i : LineId) (kd : TriggerKind) : BlockInv (setSense i kd s) := by
  rw [setSense_frame]
  exact { h with }

theorem arm_keeps_blockInv (i : LineId) : BlockInv (s.setEn i true) where
  __ := h
  disarmed_has_no_latch := by
    intro j hj
    rw [State.setEn_en, PerLine.get_set] at hj
    split at hj
    · cases hj
    · exact h.disarmed_has_no_latch j hj

/-- Part (b) stays when any latch is cleared, as `EDIS` and the entry to a handler do. -/
theorem disarmed_has_no_latch_after_clear (i j : LineId) (hj : s.en.get j = false) :
    (s.pend.set i false).get j = false := by
  rw [PerLine.get_set, h.disarmed_has_no_latch j hj, ite_self]

/-- `EDIS` discards the latch of the line it disarms (rule R135), which is what part (b) needs. -/
theorem disarm_keeps_blockInv (i : LineId) : BlockInv ((s.setEn i false).setPend i false) where
  __ := h
  disarmed_has_no_latch := by
    intro j hj
    simp only [State.setPend_en, State.setEn_en, State.setPend_pend, State.setEn_pend] at hj ⊢
    by_cases hi : j = i
    · rw [hi, PerLine.get_set_same]
    · rw [PerLine.get_set_ne _ _ hi] at hj
      exact disarmed_has_no_latch_after_clear h i j hj

/-- `CLKRESET` and `GATEOFF` discard the tick; `GATEON` runs and writes `INIT_CFG`; `ADVANCE` keeps the clock legal. -/
theorem service_keeps_blockInv (src : Source) : BlockInv (service src s) := by
  rw [service_eq]
  rcases src with (_ | _ | _) | _
  · exact { h with
      tick_needs_running := nofun
      disarmed_has_no_latch := disarmed_has_no_latch_after_clear h .l0
      clock_valid := rfl }
  · exact { h with
      tick_needs_running := nofun
      disarmed_has_no_latch := disarmed_has_no_latch_after_clear h .l1 }
  · exact { h with
      tick_needs_running := fun _ => rfl
      disarmed_has_no_latch := disarmed_has_no_latch_after_clear h .l2
      cfg_constant := rfl }
  · exact { h with
      tick_needs_running := nofun
      clock_valid := advanceValue_valid h.clock_valid }

/-- A visit selects the position it leaves behind, and shows a decimal digit there. -/
theorem visitPosition_keeps_blockInv : BlockInv (visitPosition s) where
  __ := h
  pos_legal := Nat.le_of_lt_succ (posNumber_lt _)
  sel_legal := by
    have hlt := posNumber_lt s.pos
    have hlast : ((posNumber s.pos + 1) % 6 + 5) % 6 = posNumber s.pos := by omega
    exact .inr (by rw [visitPosition_sel, visitPosition_pos, posNumber_nextPos, hlast, onehot6])
  bcd_digit := digitAt_le s.clock s.pos
  vis_digit_or_blank := by
    intro q
    rw [visitPosition_vis, DigitFrame.get_set]
    split
    · exact .inl (digitAt_le s.clock s.pos)
    · exact h.vis_digit_or_blank q

/-- A number that names no line, and a `DISP` with nothing to service, change nothing (rules R76, R150). -/
theorem elim_keeps_blockInv {α : Type} (o : Option α) (f : α → State) (hf : ∀ a, BlockInv (f a)) :
    BlockInv (o.elim s f) := by
  cases o with
  | none => exact h
  | some a => exact hf a

/-- Every command keeps the invariants of rule R43. -/
theorem effect_keeps_blockInv (i : Instr) : BlockInv (effect i s) := by
  cases i with
  | tick =>
    simp only [effect]
    split
    next hg => exact latchTick_keeps_blockInv h hg
    next => exact h
  | line ln lv => exact elim_keeps_blockInv h (lineOf ln) _ (fun i => sampleLine_keeps_blockInv h i lv)
  | ecfg ln kd => exact elim_keeps_blockInv h (lineOf ln) _ (fun i => setSense_keeps_blockInv h i kd)
  | een ln => exact elim_keeps_blockInv h (lineOf ln) _ (fun i => arm_keeps_blockInv h i)
  | edis ln => exact elim_keeps_blockInv h (lineOf ln) _ (fun i => disarm_keeps_blockInv h i)
  | irqoff => exact { h with }
  | irqon => exact { h with }
  | disp =>
    simp only [effect]
    split
    · exact elim_keeps_blockInv h (selectSource s) _ (fun src => service_keeps_blockInv h src)
    · exact h
  | scan => exact visitPosition_keeps_blockInv h
  | rd ad => exact { h with }

/-- Every step keeps the invariants of rule R43: the idle step, a command and a refusal. -/
theorem step_keeps_blockInv {t : State} (hs : step s = .next t) : BlockInv t := by
  obtain ⟨-, rfl⟩ | ⟨w, rest, i, -, -, -, -, -, rfl⟩ | ⟨w, rest, -, -, -, rfl⟩ := step_cases hs
  · exact h
  · exact effect_keeps_blockInv (s := { s with port := rest }) { h with } i
  · exact { h with }

end

/-- Rule R43 (a) to (f) over every reachable state: presenting a word writes the port alone. -/
theorem Reachable.blockInv {hist : List (State × Instr)} {s : State} (hr : Reachable hist s) : BlockInv s := by
  induction hr with
  | reset p => exact blockInv_resetWith p
  | present w _ ih => exact { ih with }
  | step _ hs ih => exact step_keeps_blockInv ih hs

/-- The clock invariant of rule R25 as its three bounds. -/
theorem ClockValue.valid_iff (c : ClockValue) :
    c.valid = true ↔ c.sec.toNat ≤ 59 ∧ c.min.toNat ≤ 59 ∧ c.hour.toNat ≤ 23 := by
  simp only [ClockValue.valid, Bool.and_eq_true, decide_eq_true_eq, and_assoc]

/-! ### Visited positions and the visible frame (rule R43(g)) -/

/-- What a command does to one digit of the visible frame: a `SCAN` at that position writes it, nothing else does. -/
theorem effect_vis_get (i : Instr) (s : State) (p : DigitPos) :
    (effect i s).vis.get p = if i = .scan ∧ s.pos = p then digitAt s.clock p else s.vis.get p := by
  by_cases hi : i = .scan
  · subst hi
    simp only [effect, visitPosition_vis, DigitFrame.get_set, true_and, eq_comm (a := s.pos)]
    split
    next hp => rw [hp]
    next => rfl
  · obtain ⟨-, -, -, hvis⟩ := effect_scanner s hi
    rw [hvis, if_neg (fun hc => hi hc.1)]

/-- With no word presented no command is next. -/
theorem nextCommand_of_no_word {s : State} (h : s.port = []) : nextCommand s = none := by
  simp only [nextCommand, h]

/-- What a step does to one digit of the visible frame. -/
theorem step_vis_get {s t : State} (h : step s = .next t) (p : DigitPos) :
    t.vis.get p = if nextCommand s = some .scan ∧ s.pos = p then digitAt s.clock p else s.vis.get p := by
  obtain ⟨hport, rfl⟩ | ⟨w, rest, i, -, -, -, -, hnext, rfl⟩ | ⟨w, rest, -, -, hnext, rfl⟩ := step_cases h
  · simp [nextCommand_of_no_word hport]
  · simp [effect_vis_get, hnext]
  · simp [hnext]

/-- A step adds to the visited positions the one that its `SCAN`, if it runs one, is at. -/
theorem visited_step_iff (hist : List (State × Instr)) (s : State) (p : DigitPos) :
    visited (hist ++ (nextCommand s).toList.map (fun i => (s, i))) p ↔
      visited hist p ∨ (nextCommand s = some .scan ∧ s.pos = p) := by
  cases hn : nextCommand s with
  | none => simp [visited]
  | some i => simp [visited, or_and_right, exists_or, and_assoc, eq_comm (a := Instr.scan)]

/-- Once visited, a position shows a decimal digit: the visit writes one, and no later step blanks it. -/
theorem Reachable.digit_of_visited {hist : List (State × Instr)} {s : State} (hr : Reachable hist s) {p : DigitPos}
    (hv : visited hist p) : (s.vis.get p).toNat ≤ 9 := by
  induction hr with
  | reset q =>
    obtain ⟨u, hu, -⟩ := hv
    cases hu
  | present w _ ih => exact ih hv
  | @step hist s t _ hs ih =>
    rw [step_vis_get hs p]
    rw [visited_step_iff] at hv
    split
    next => exact digitAt_le s.clock p
    next hno => exact ih (hv.resolve_right hno)

/-- A blank is no decimal digit. -/
theorem Reachable.not_visited_of_blank {hist : List (State × Instr)} {s : State} (hr : Reachable hist s) {p : DigitPos}
    (hb : s.vis.get p = 0xF#4) : ¬visited hist p := by
  intro hv
  have hdigit := hr.digit_of_visited hv
  rw [hb] at hdigit
  exact absurd hdigit (by decide)

/-! ### The obligations -/

/-- Settles O55: rule R43 (a) to (f) hold at reset and every step keeps them; (g) follows the history. -/
theorem reachableStatesMeetRuleR43 : Obligations.ReachableStatesMeetRuleR43 := by
  intro hist s hr
  have hinv := hr.blockInv
  exact ⟨hinv.tick_needs_running, hinv.disarmed_has_no_latch, hinv.pos_legal, hinv.sel_legal, hinv.cfg_constant,
    s.clock.valid_iff.mp hinv.clock_valid, fun _ => hr.not_visited_of_blank⟩

/-- Settles O1: the values stand in `State.resetWith`; the arrays are read element by element. -/
theorem resetStateIsTheTable : Obligations.ResetStateIsTheTable := by
  refine ⟨fun p => ⟨rfl, rfl, rfl, rfl, rfl, rfl, rfl, rfl, ?en, rfl, rfl, rfl, ?pend, rfl, rfl, rfl, rfl, rfl, rfl,
    ?vis, rfl, rfl⟩, ?kinds, ?levels⟩
  case en => intro i; cases i <;> rfl
  case pend => intro i; cases i <;> rfl
  case vis => intro q; cases q <;> rfl
  case kinds => intro i; cases i <;> rfl
  case levels => intro i; cases i <;> rfl

end Sys2Proof.Machine

/-! PROOFS. The memory model (20_memory.md): masked runs, reads, and progress under the premises of rule R53. First what
a decoded word is and what a command leaves alone; then one step of a run under an endless schedule; then the
obligations. -/
namespace Sys2Proof

/-! ### A decoded word is the word of its command -/

/-- A field placed at bit `lo` is the field's bits shifted there. -/
theorem placeField_toNat {n : Nat} (lo : Nat) (v : BitVec n) : placeField lo v.toNat = v.setWidth 16 <<< lo := by
  rw [placeField, BitVec.ofNat_toNat]

theorem placeField_zero_toNat {n : Nat} (v : BitVec n) : placeField 0 v.toNat = v.setWidth 16 := by
  rw [placeField_toNat, BitVec.shiftLeft_zero]

/-- A level's code is the field it was read from. -/
theorem levelCode_lvField (w : Word) : levelCode (lvField w) = (w.extractLsb' 4 1).toNat := by
  have hlt : fieldOf w 4 1 < 2 := (w.extractLsb' 4 1).isLt
  change levelCode (levelOfCode (fieldOf w 4 1)) = fieldOf w 4 1
  interval_cases fieldOf w 4 1 <;> rfl

/-- A kind's code is the field it was read from. -/
theorem kindCode_kdField (w : Word) : kindCode (kdField w) = (w.extractLsb' 8 2).toNat := by
  have hlt : fieldOf w 8 2 < 4 := (w.extractLsb' 8 2).isLt
  change kindCode (kindOfCode (fieldOf w 8 2)) = fieldOf w 8 2
  interval_cases fieldOf w 8 2 <;> rfl

/-- A guarded decoding that answers a command has passed its guard. -/
theorem ok_of_guard {c : Prop} [Decidable c] {i j : Instr} {e : DecodeError}
    (h : (if c then Except.ok i else Except.error e) = Except.ok j) : c ∧ i = j := by
  split at h
  next hc => exact ⟨hc, Except.ok.inj h⟩
  next => cases h

/-- Every word the decoder accepts is the word of the command it answers (rules R71, R79). -/
theorem encode_of_decode {w : Word} {i : Instr} (h : decode w = .ok i) : encode i = w := by
  unfold decode at h
  split at h
  case h_11 => cases h
  all_goals
    obtain ⟨hw, rfl⟩ := ok_of_guard h
  case h_2 =>
    rw [encode, lnField, fieldOf, levelCode_lvField, placeField_toNat, placeField_zero_toNat]
    exact (eq_of_match_LV hw).symm
  case h_3 =>
    rw [encode, lnField, fieldOf, kindCode_kdField, placeField_toNat, placeField_zero_toNat]
    exact (eq_of_match_LK hw).symm
  case h_4 | h_5 =>
    rw [encode, lnField, fieldOf, placeField_zero_toNat]
    exact (eq_of_match_L hw).symm
  case h_10 =>
    rw [encode, adField, fieldOf, placeField_zero_toNat]
    exact (eq_of_match_A hw).symm
  all_goals exact hw.symm

end Sys2Proof

namespace Sys2Proof.Machine

/-! ### What a command leaves alone: the enable, the tick latch, the line latches -/

@[simp] theorem setSense_en (i : LineId) (kd : TriggerKind) (s : State) : (setSense i kd s).en = s.en := by
  rw [setSense_frame]
@[simp] theorem setSense_pend (i : LineId) (kd : TriggerKind) (s : State) : (setSense i kd s).pend = s.pend := by
  rw [setSense_frame]
@[simp] theorem setSense_ie (i : LineId) (kd : TriggerKind) (s : State) : (setSense i kd s).ie = s.ie := by
  rw [setSense_frame]
@[simp] theorem setSense_tickOvr (i : LineId) (kd : TriggerKind) (s : State) :
    (setSense i kd s).tickOvr = s.tickOvr := by
  rw [setSense_frame]
@[simp] theorem setSense_tickPend (i : LineId) (kd : TriggerKind) (s : State) :
    (setSense i kd s).tickPend = s.tickPend := by
  rw [setSense_frame]

@[simp] theorem service_en (src : Source) (s : State) : (service src s).en = s.en := by rw [service_frame]
@[simp] theorem service_ie (src : Source) (s : State) : (service src s).ie = s.ie := by rw [service_frame]
@[simp] theorem service_tickOvr (src : Source) (s : State) : (service src s).tickOvr = s.tickOvr := by
  rw [service_frame]

/-- With `IE = 0` a `DISP` changes nothing (rule R150). -/
theorem effect_disp_of_masked {s : State} (h : s.ie = false) : effect .disp s = s := by
  simp only [effect, h, Bool.false_eq_true, if_false]

/-- With `IE = 1` a `DISP` services the selected source (rule R150). -/
theorem effect_disp_of_selected {s : State} {src : Source} (hie : s.ie = true) (h : selectSource s = some src) :
    effect .disp s = service src s := by
  simp only [effect, hie, h, if_true, Option.elim]

/-- Only `IRQOFF` and `IRQON` write `IE`, only `TICK` writes `TICK_OVR`, only `TICK` and `DISP` write `TICK_PEND`. -/
theorem effect_flags (i : Instr) (s : State) :
    (i ≠ .irqoff → i ≠ .irqon → (effect i s).ie = s.ie) ∧
    (i ≠ .tick → (effect i s).tickOvr = s.tickOvr) ∧
    (i ≠ .tick → i ≠ .disp → (effect i s).tickPend = s.tickPend) := by
  cases i with
  | tick => simp only [effect]; split <;> simp [latchTick_eq]
  | line ln lv => cases hl : lineOf ln <;> simp [effect, sampleLine_eq, hl]
  | ecfg ln kd => cases hl : lineOf ln <;> simp [effect, hl]
  | een ln => cases hl : lineOf ln <;> simp [effect, hl]
  | edis ln => cases hl : lineOf ln <;> simp [effect, hl]
  | irqoff => simp [effect]
  | irqon => simp [effect]
  | disp => simp only [effect]; split <;> cases selectSource s <;> simp
  | scan => simp [effect]
  | rd ad => simp [effect]

/-- No command but `DISP` clears the tick latch: a `TICK` leaves it set or sets it (rule R90). -/
theorem effect_keeps_tickPend {i : Instr} {s : State} (hi : i ≠ .disp) (h : s.tickPend = true) :
    (effect i s).tickPend = true := by
  by_cases ht : i = .tick
  · subst ht
    simp only [effect, latchTick_eq]
    split
    · rfl
    · exact h
  · obtain ⟨-, -, hpend⟩ := effect_flags i s
    rw [hpend ht hi, h]

/-- A tick latched after a command was latched by it, or was latched before and was not serviced by it. -/
theorem tickPend_after_effect {i : Instr} {s : State} (h : (effect i s).tickPend = true) :
    (i = .tick ∧ s.gate = .running) ∨
    (s.tickPend = true ∧ (i = .disp → s.ie = true → selectSource s ≠ some .tick)) := by
  by_cases ht : i = .tick
  · subst ht
    by_cases hg : s.gate = .running
    · exact .inl ⟨rfl, hg⟩
    · rw [effect, if_neg hg] at h
      exact .inr ⟨h, nofun⟩
  by_cases hd : i = .disp
  · subst hd
    simp only [effect] at h
    split at h
    next hie =>
      cases hsel : selectSource s with
      | none =>
        rw [hsel] at h
        exact .inr ⟨h, fun _ _ => nofun⟩
      | some src =>
        rw [hsel, Option.elim, service_eq] at h
        rcases src with (_ | _ | _) | _
        · cases h
        · cases h
        · exact .inr ⟨h, fun _ _ => nofun⟩
        · cases h
    next hie => exact .inr ⟨h, fun _ hc => absurd hc hie⟩
  · obtain ⟨-, -, hpend⟩ := effect_flags i s
    exact .inr ⟨by rw [← hpend ht hd, h], fun hc => absurd hc hd⟩

/-- A set element stays set when any element is set. -/
theorem PerLine.get_set_true {r : PerLine Bool} {j : LineId} (h : r.get j = true) (i : LineId) :
    (r.set i true).get j = true := by
  rw [PerLine.get_set, h, ite_self]

section
variable {i : Instr} {s : State} {j : LineId} (hedis : ∀ ln, lineOf ln = some j → i ≠ .edis ln)
include hedis

/-- An `EDIS` that does not name line `j` names no line or another one. -/
theorem get_set_of_no_edis {ln : Nat} {k : LineId} (hi : i = .edis ln) (hl : lineOf ln = some k) (r : PerLine Bool) :
    (r.set k false).get j = r.get j :=
  PerLine.get_set_ne r false (fun hjk => hedis ln (by rw [hl, hjk]) hi)

/-- Only `EDIS` disarms a line (rule R135). -/
theorem effect_keeps_armed (h : s.en.get j = true) : (effect i s).en.get j = true := by
  cases i with
  | tick => simp only [effect]; split <;> simp [latchTick_eq, h]
  | line ln lv => cases hl : lineOf ln <;> simp [effect, sampleLine_eq, hl, h]
  | ecfg ln kd => cases hl : lineOf ln <;> simp [effect, hl, h]
  | een ln => cases hl : lineOf ln <;> simp [effect, hl, h, PerLine.get_set_true]
  | edis ln =>
    cases hl : lineOf ln with
    | none => simp [effect, hl, h]
    | some k => simp [effect, hl, h, get_set_of_no_edis hedis rfl hl]
  | irqoff => exact h
  | irqon => exact h
  | disp => simp only [effect]; split <;> cases selectSource s <;> simp [h]
  | scan => exact h
  | rd ad => exact h

/-- Only `EDIS` and `DISP` clear a line's latch (rules R135, R150). -/
theorem effect_keeps_latch (hdisp : i ≠ .disp) (h : s.pend.get j = true) : (effect i s).pend.get j = true := by
  cases i with
  | tick => simp only [effect]; split <;> simp [latchTick_eq, h]
  | line ln lv =>
    cases hl : lineOf ln with
    | none => simp [effect, hl, h]
    | some k =>
      simp only [effect, hl, Option.elim, sampleLine_eq]
      split
      · exact PerLine.get_set_true h k
      · exact h
  | ecfg ln kd => cases hl : lineOf ln <;> simp [effect, hl, h]
  | een ln => cases hl : lineOf ln <;> simp [effect, hl, h]
  | edis ln =>
    cases hl : lineOf ln with
    | none => simp [effect, hl, h]
    | some k => simp [effect, hl, h, get_set_of_no_edis hedis rfl hl]
  | irqoff => exact h
  | irqon => exact h
  | disp => exact absurd rfl hdisp
  | scan => exact h
  | rd ad => exact h

end

/-! ### A masked run (rule R57(b)) -/

/-- No command but `IRQON` ends the masking (rule R153). -/
theorem effect_keeps_masked {i : Instr} {s : State} (hi : i ≠ .irqon) (h : s.ie = false) : (effect i s).ie = false := by
  by_cases hoff : i = .irqoff
  · rw [hoff, effect]
  · obtain ⟨hie, -, -⟩ := effect_flags i s
    rw [hie hoff hi, h]

/-- A masked command leaves what only a `DISP` writes (rules R150, R152). -/
theorem effect_clock_of_masked {s : State} (h : s.ie = false) (i : Instr) :
    (effect i s).clock = s.clock ∧ (effect i s).gate = s.gate ∧ (effect i s).tcfg = s.tcfg := by
  by_cases hi : i = .disp
  · rw [hi, effect_disp_of_masked h]
    exact ⟨rfl, rfl, rfl⟩
  · exact effect_clock s hi

/-- What every command but `DISP` keeps, a masked run keeps. -/
theorem masked_effects_keep {P : State → Prop} {is : List Instr} (hon : .irqon ∉ is)
    (keep : ∀ i ∈ is, i ≠ .disp → ∀ s, P s → P (effect i s)) {s : State} (hie : s.ie = false) (h : P s) :
    P (effects is s) := by
  refine (effects_induction (P := fun u => u.ie = false ∧ P u) is (fun i hi u hu => ?_) s ⟨hie, h⟩).2
  obtain ⟨hmask, hP⟩ := hu
  refine ⟨effect_keeps_masked (fun hc => hon (hc ▸ hi)) hmask, ?_⟩
  by_cases hd : i = .disp
  · rw [hd, effect_disp_of_masked hmask]
    exact hP
  · exact keep i hi hd u hP

/-! ### A read (rule R62(a)) -/

/-- No bit of the read space stands for `RDATA` (rule R191). -/
@[simp] theorem regRead_rdata (s : State) (v : ReadWord) (a : Nat) :
    regRead { s with rdata := v } a = regRead s a := rfl

/-- No request depends on `RDATA` (rules R131, R151). -/
@[simp] theorem selectSource_rdata (s : State) (v : ReadWord) :
    selectSource { s with rdata := v } = selectSource s := rfl

/-- Byte `k` of a read word as a number (rule R60). -/
theorem readByte_toNat (v : ReadWord) (k : Nat) : (readByte v k).toNat = v.toNat / 2 ^ (8 * k) % 2 ^ 8 := by
  rw [readByte, BitVec.extractLsb'_toNat, Nat.shiftRight_eq_div_pow]

/-! ### One step of a run under an endless schedule -/

/-- What a word can do to a run: its command runs, or the run is marked refused (rules R50, R78). -/
theorem runWord_cases {w : Word} {s t : State} (h : runWord w s = .next t) :
    s.refused = false ∧ ((∃ i, decode w = .ok i ∧ t = effect i s) ∨ t = refuse s) := by
  unfold runWord at h
  split at h
  next => cases h
  next hr =>
    refine ⟨Bool.eq_false_of_not_eq_true hr, ?_⟩
    split at h
    next =>
      cases hd : decode w with
      | ok i =>
        rw [hd] at h
        exact .inl ⟨i, rfl, exec_next_iff.mp h⟩
      | error e =>
        rw [hd] at h
        cases h
        exact .inr rfl
    next =>
      cases h
      exact .inr rfl

/-- The state after one more word comes from the state before it. -/
theorem stateAt_succ_cases {s t : State} {words : Nat → Word} {n : Nat} (h : stateAt s words (n + 1) = some t) :
    ∃ u, stateAt s words n = some u ∧ u.refused = false ∧
      ((∃ i, decode (words n) = .ok i ∧ t = effect i u) ∨ t = refuse u) := by
  rw [stateAt] at h
  cases hu : stateAt s words n with
  | none => rw [hu] at h; cases h
  | some u =>
    rw [hu] at h
    cases hr : runWord (words n) u with
    | next t' =>
      simp only [hr] at h
      cases h
      exact ⟨u, rfl, runWord_cases hr⟩
    | fault r => simp only [hr] at h; cases h
    | refused r => simp only [hr] at h; cases h

/-- In a meaningful run every word decodes, and its command gives the next state. -/
theorem meaningfulRun_step {s u : State} {words : Nat → Word} {n : Nat} (hm : meaningfulRun s words)
    (hu : stateAt s words n = some u) :
    ∃ i, decode (words n) = .ok i ∧ stateAt s words (n + 1) = some (effect i u) := by
  obtain ⟨t, ht, href⟩ := hm (n + 1)
  obtain ⟨u', hu', -, ⟨i, hd, rfl⟩ | rfl⟩ := stateAt_succ_cases ht
  · rw [hu] at hu'
    cases hu'
    exact ⟨i, hd, ht⟩
  · cases href

/-- A presented word that is a command's own word decodes to that command. -/
theorem eq_of_decode {w : Word} {i j : Instr} (hi : decode w = .ok i) (hw : w = encode j)
    (hj : decode (encode j) = .ok j) : i = j := by
  rw [hw, hj] at hi
  exact (Except.ok.inj hi).symm

/-! ### The scanner visits every position (rules R36, R53(a), R170) -/

/-- After `k` visits the scanner is `k` positions further on. -/
theorem posNumber_iterate_nextPos (k : Nat) (p : DigitPos) : posNumber (nextPos^[k] p) = (posNumber p + k) % 6 := by
  induction k with
  | zero => exact (Nat.mod_eq_of_lt (posNumber_lt p)).symm
  | succ k ih =>
    rw [Function.iterate_succ_apply', posNumber_nextPos, ih]
    omega

/-- Every position is some number of visits ahead of every other. -/
theorem exists_iterate_nextPos (p q : DigitPos) : ∃ k, nextPos^[k] p = q := by
  have hp := posNumber_lt p
  have hq := posNumber_lt q
  refine ⟨posNumber q + 6 - posNumber p, posNumber_inj ?_⟩
  rw [posNumber_iterate_nextPos]
  omega

section
variable {s : State} {words : Nat → Word} (hm : meaningfulRun s words)
include hm

/-- The next `SCAN`, `d` words or fewer ahead, visits the position the scanner is at. -/
theorem next_scan_visits (d : Nat) {n : Nat} {u : State} (hu : stateAt s words n = some u)
    (hscan : words (n + d) = encode .scan) :
    ∃ m t, n < m ∧ stateAt s words m = some t ∧ t.sel = onehot6 u.pos ∧ t.pos = nextPos u.pos := by
  induction d generalizing n u with
  | zero =>
    obtain ⟨i, hd, ht⟩ := meaningfulRun_step hm hu
    rw [eq_of_decode hd hscan rfl] at ht
    exact ⟨n + 1, _, Nat.lt_succ_self n, ht, rfl, rfl⟩
  | succ d ih =>
    obtain ⟨i, -, ht⟩ := meaningfulRun_step hm hu
    by_cases hi : i = .scan
    · subst hi
      exact ⟨n + 1, _, Nat.lt_succ_self n, ht, rfl, rfl⟩
    · obtain ⟨hpos, -⟩ := effect_scanner u hi
      rw [← hpos]
      obtain ⟨m, t, hnm, hmt⟩ := ih ht (by rw [← hscan]; congr 1; omega)
      exact ⟨m, t, by omega, hmt⟩

/-- With scanner progress the position the scanner is at is selected later, and the scanner moves on. -/
theorem position_visited (hp : scannerProgress words) {n : Nat} {u : State} (hu : stateAt s words n = some u) :
    ∃ m t, n < m ∧ stateAt s words m = some t ∧ t.sel = onehot6 u.pos ∧ t.pos = nextPos u.pos := by
  obtain ⟨m, hle, hscan⟩ := hp n
  exact next_scan_visits hm (m - n) hu (by rw [Nat.add_sub_cancel' hle, hscan])

/-- With scanner progress the position `k` visits ahead is selected later. -/
theorem position_ahead_visited (hp : scannerProgress words) (k : Nat) {n : Nat} {u : State}
    (hu : stateAt s words n = some u) :
    ∃ m t, n ≤ m ∧ stateAt s words m = some t ∧ t.sel = onehot6 (nextPos^[k] u.pos) := by
  induction k generalizing n u with
  | zero =>
    obtain ⟨m, t, hnm, ht, hsel, -⟩ := position_visited hm hp hu
    exact ⟨m, t, hnm.le, ht, hsel⟩
  | succ k ih =>
    obtain ⟨m, t, hnm, ht, -, hpos⟩ := position_visited hm hp hu
    obtain ⟨l, v, hml, hv⟩ := ih ht
    rw [hpos] at hv
    exact ⟨l, v, hnm.le.trans hml, hv⟩

end

/-! ### A latched Reset press (rule R53(b)) -/

/-- Only the number 0 names the Reset line (rule R72). -/
theorem eq_zero_of_lineOf {ln : Nat} (h : lineOf ln = some .l0) : ln = 0 := by
  unfold lineOf at h
  split at h
  case h_1 => rfl
  all_goals cases h

/-- The Reset line is armed and latched while interrupts are enabled. -/
def ResetWaits (s : State) : Prop := s.ie = true ∧ s.en.get .l0 = true ∧ s.pend.get .l0 = true

/-- The Reset press has been serviced: the clock is zero and the latch clear. -/
def ResetServed (s : State) : Prop := s.clock = { sec := 0, min := 0, hour := 0 } ∧ s.pend.l0 = false

/-- Nothing goes before a waiting Reset press (rule R213). -/
theorem ResetWaits.selected {s : State} (h : ResetWaits s) : selectSource s = some (.line .l0) := by
  obtain ⟨-, hen, hpend⟩ := h
  have hrequest : requestLine s .l0 = true := by simp only [requestLine, hen, hpend, Bool.true_and, Bool.true_or]
  exact selectSource_eq_some_line.mpr ⟨hrequest, nofun, nofun⟩

/-- A `DISP` services a waiting Reset press (rules R93, R150). -/
theorem ResetWaits.served_by_disp {s : State} (h : ResetWaits s) : ResetServed (effect .disp s) := by
  rw [effect_disp_of_selected h.1 h.selected, service_eq]
  exact ⟨rfl, rfl⟩

/-- Any other command leaves a Reset press waiting, unless it masks interrupts or disarms the line. -/
theorem ResetWaits.kept {i : Instr} {s : State} (h : ResetWaits s) (hdisp : i ≠ .disp) (hoff : i ≠ .irqoff)
    (hedis : i ≠ .edis 0) : ResetWaits (effect i s) := by
  obtain ⟨hie, hen, hpend⟩ := h
  have hline : ∀ ln, lineOf ln = some .l0 → i ≠ .edis ln := by
    intro ln hl
    rwa [eq_zero_of_lineOf hl]
  refine ⟨?_, effect_keeps_armed hline hen, effect_keeps_latch hline hdisp hpend⟩
  by_cases hon : i = .irqon
  · rw [hon, effect]
  · obtain ⟨hsame, -, -⟩ := effect_flags i s
    rw [hsame hoff hon, hie]

/-- While nothing masks or disarms it, a waiting Reset press waits on or is serviced by the word before. -/
theorem reset_waits_or_served {s u : State} {words : Nat → Word} (hm : meaningfulRun s words) {n : Nat}
    (hkeep : ∀ m, n ≤ m → words m ≠ encode .irqoff ∧ words m ≠ encode (.edis 0)) (hu : stateAt s words n = some u)
    (hw : ResetWaits u) (d : Nat) :
    (∃ m t, n < m ∧ stateAt s words m = some t ∧ ResetServed t) ∨
    (∃ t, stateAt s words (n + d) = some t ∧ ResetWaits t) := by
  induction d with
  | zero => exact .inr ⟨u, hu, hw⟩
  | succ d ih =>
    obtain hdone | ⟨t, ht, hwt⟩ := ih
    · exact .inl hdone
    obtain ⟨i, hdec, hnext⟩ := meaningfulRun_step hm ht
    obtain ⟨hoff, hedis⟩ := hkeep (n + d) (Nat.le_add_right n d)
    rw [← encode_of_decode hdec] at hoff hedis
    by_cases hi : i = .disp
    · subst hi
      exact .inl ⟨_, _, by omega, hnext, hwt.served_by_disp⟩
    · exact .inr ⟨_, hnext, hwt.kept hi (fun hc => hoff (hc ▸ rfl)) (fun hc => hedis (hc ▸ rfl))⟩

/-! ### No tick overrun (rules R53(c), R90, R247) -/

/-- At time `n` a tick presented while Running has had no `DISP` that services it. -/
def TickAwaitsService (s : State) (words : Nat → Word) (n : Nat) : Prop :=
  ∃ a u, a < n ∧ words a = encode .tick ∧ stateAt s words a = some u ∧ u.gate = .running ∧
    ∀ m x, a < m → m < n → words m = encode .disp → stateAt s words m = some x → x.ie = true →
      selectSource x ≠ some .tick

/-- A tick goes on waiting over a word that is no `DISP` servicing it. -/
theorem TickAwaitsService.succ {s u : State} {words : Nat → Word} {n : Nat} (h : TickAwaitsService s words n)
    (hu : stateAt s words n = some u) (hno : words n = encode .disp → u.ie = true → selectSource u ≠ some .tick) :
    TickAwaitsService s words (n + 1) := by
  obtain ⟨a, v, han, ha, hv, hg, hwait⟩ := h
  refine ⟨a, v, by omega, ha, hv, hg, fun m x ham hmn hd hx hie => ?_⟩
  obtain hlt | rfl := Nat.lt_succ_iff_lt_or_eq.mp hmn
  · exact hwait m x ham hlt hd hx hie
  · rw [hu] at hx
    cases hx
    exact hno hd hie

/-- A tick latched during the run was presented while Running and awaits service. -/
theorem latched_tick_awaits_service {s : State} {words : Nat → Word} (hs : s.tickPend = false) {n : Nat} {u : State}
    (hu : stateAt s words n = some u) (href : u.refused = false) (hp : u.tickPend = true) :
    TickAwaitsService s words n := by
  induction n generalizing u with
  | zero =>
    cases hu
    rw [hs] at hp
    cases hp
  | succ n ih =>
    obtain ⟨v, hv, hvref, ⟨i, hdec, rfl⟩ | rfl⟩ := stateAt_succ_cases hu
    · obtain ⟨rfl, hg⟩ | ⟨hvp, hno⟩ := tickPend_after_effect hp
      · exact ⟨n, v, Nat.lt_succ_self n, (encode_of_decode hdec).symm, hv, hg, fun m x hnm hmn => by omega⟩
      · exact (ih hv hvref hvp).succ hv fun hw => hno (eq_of_decode hdec hw rfl)
    · cases href

/-- A tick is lost only where one is latched while Running (rule R90). -/
theorem tickOvr_of_no_overrun {i : Instr} {s : State}
    (h : i = .tick → s.gate = .running → s.tickPend = false) : (effect i s).tickOvr = s.tickOvr := by
  by_cases hi : i = .tick
  · subst hi
    simp only [effect]
    split
    next hg => rw [latchTick_eq, h rfl hg, Bool.or_false]
    next => rfl
  · obtain ⟨-, hovr, -⟩ := effect_flags i s
    exact hovr hi

/-- Under premise (c) no tick is latched where a `TICK` arrives while Running: the one latched was serviced. -/
theorem tick_finds_latch_clear {s u : State} {words : Nat → Word} {n : Nat} (hs : s.tickPend = false)
    (hno : noTickOverrun s words) (hu : stateAt s words n = some u) (href : u.refused = false)
    (hw : words n = encode .tick) (hg : u.gate = .running) : u.tickPend = false := by
  by_contra hp
  obtain ⟨a, v, han, ha, hv, hvg, hwait⟩ :=
    latched_tick_awaits_service hs hu href (Bool.eq_true_of_not_eq_false hp)
  obtain ⟨m, x, ham, hmn, hd, hx, hie, hsel⟩ := hno a n v u han ha hw hv hvg hu hg
  exact hwait m x ham hmn hd hx hie hsel

/-! ### The obligations -/

/-- Settles O36: with `IE = 0` a `DISP` changes nothing, and no other command writes the clock, the gate or the timer
configuration, or clears a latch, but `EDIS`. -/
theorem maskedBlockRunsNoHandler : Obligations.MaskedBlockRunsNoHandler := by
  intro s t is hie hon ht
  obtain rfl := execAll_next_iff.mp ht
  have frame : (effects is s).clock = s.clock ∧ (effects is s).gate = s.gate ∧ (effects is s).tcfg = s.tcfg :=
    masked_effects_keep (P := fun u => u.clock = s.clock ∧ u.gate = s.gate ∧ u.tcfg = s.tcfg) hon
      (fun i _ hd u hu => by
        obtain ⟨hc, hg, hf⟩ := effect_clock u hd
        rwa [hc, hg, hf]) hie ⟨rfl, rfl, rfl⟩
  obtain ⟨hclock, hgate, htcfg⟩ := frame
  refine ⟨hclock, hgate, htcfg, ?tick, ?line⟩
  case tick =>
    exact masked_effects_keep (P := fun u => u.tickPend = true) hon (fun _ _ hd _ => effect_keeps_tickPend hd) hie
  case line =>
    intro j hj hedis
    exact masked_effects_keep (P := fun u => u.pend.get j = true) hon
      (fun i hi hd _ => effect_keeps_latch (fun ln hl hc => hedis ln hl (hc ▸ hi)) hd) hie hj

/-- Settles O51: `RD` writes `RDATA` alone, which no read word and no request reads. -/
theorem readsHaveNoSideEffect : Obligations.ReadsHaveNoSideEffect := by
  intro s t ad ht
  obtain rfl := exec_next_iff.mp ht
  refine ⟨regRead_rdata s _, ?_, selectSource_rdata s _⟩
  rw [exec_next_iff]
  simp only [effect, regRead_rdata]

/-- Settles O56: from time `n` the position is some number of visits ahead, and each visit comes. -/
theorem everyPositionIsVisitedForever : Obligations.EveryPositionIsVisitedForever := by
  intro s words hm hp n p
  obtain ⟨u, hu, -⟩ := hm n
  obtain ⟨k, rfl⟩ := exists_iterate_nextPos u.pos p
  exact position_ahead_visited hm hp k hu

/-- Settles O57: the press waits until the `DISP` that interrupt service promises, which services it. -/
theorem latchedResetIsServed : Obligations.LatchedResetIsServed := by
  intro s words hm hserve n u hu hie hen hpend hkeep
  have hw : ResetWaits u := ⟨hie, hen, hpend⟩
  have hrequest : selectSource u ≠ none := by rw [hw.selected]; nofun
  obtain ⟨m, hnm, hdisp⟩ := hserve n u hu hie hrequest
  obtain ⟨d, rfl⟩ := Nat.exists_eq_add_of_le hnm
  obtain hdone | ⟨t, ht, hwt⟩ := reset_waits_or_served hm hkeep hu hw d
  · exact hdone
  · obtain ⟨i, hdec, hnext⟩ := meaningfulRun_step hm ht
    rw [eq_of_decode hdec hdisp rfl] at hnext
    exact ⟨_, _, by omega, hnext, hwt.served_by_disp⟩

/-- Settles O58: a `TICK` while Running finds the latch clear, so none sets `TICK_OVR`. -/
theorem noOverrunNoLostTick : Obligations.NoOverrunNoLostTick := by
  intro s words hs hno n
  induction n with
  | zero =>
    intro u hu
    cases hu
    rfl
  | succ n ih =>
    intro t ht
    obtain ⟨u, hu, href, ⟨i, hdec, rfl⟩ | rfl⟩ := stateAt_succ_cases ht
    · have hclear : i = .tick → u.gate = .running → u.tickPend = false := by
        rintro rfl
        exact tick_finds_latch_clear hs hno hu href (encode_of_decode hdec).symm
      rw [tickOvr_of_no_overrun hclear, ih u hu]
    · rw [refuse_tickOvr, ih u hu]

/-- Settles O52: each byte is a quotient by a power of 2 ^ 8, reduced modulo 2 ^ 8. -/
theorem readWordBytesAreLittleEndian : Obligations.ReadWordBytesAreLittleEndian := by
  intro v
  have hv := v.isLt
  simp only [readByte_toNat]
  omega

end Sys2Proof.Machine

/-! PROOFS. The encoding (30_encoding.md): the decoder against rule R73's map. A word decodes to a command if and only if
it matches the command's row and the operands are its fields; it is refused by one reason, which its opcode fixes. The
obligations are read off these two facts. -/
namespace Sys2Proof

/-! ### The row of a command -/

/-- The command's row of the opcode map (rule R73). -/
def Instr.row (i : Instr) : OpcodeRow :=
  match i with
  | .tick => ⟨i.mnemonic, 0x1000#16, 0xFFFF#16⟩
  | .line _ _ => ⟨i.mnemonic, 0x2000#16, 0xFFEC#16⟩
  | .ecfg _ _ => ⟨i.mnemonic, 0x3000#16, 0xFCFC#16⟩
  | .een _ => ⟨i.mnemonic, 0x4000#16, 0xFFFC#16⟩
  | .edis _ => ⟨i.mnemonic, 0x5000#16, 0xFFFC#16⟩
  | .irqoff => ⟨i.mnemonic, 0x6000#16, 0xFFFF#16⟩
  | .irqon => ⟨i.mnemonic, 0x7000#16, 0xFFFF#16⟩
  | .disp => ⟨i.mnemonic, 0x8000#16, 0xFFFF#16⟩
  | .scan => ⟨i.mnemonic, 0x9000#16, 0xFFFF#16⟩
  | .rd _ => ⟨i.mnemonic, 0xA000#16, 0xFFF0#16⟩

@[simp] theorem Instr.row_mnemonic (i : Instr) : i.row.mnemonic = i.mnemonic := by cases i <;> rfl

theorem Instr.row_mem_opcodeMap (i : Instr) : i.row ∈ opcodeMap := by
  cases i <;> simp [Instr.row, Instr.mnemonic, opcodeMap]

/-- Every row of the map is the row of some command. -/
theorem exists_row_eq {r : OpcodeRow} (h : r ∈ opcodeMap) : ∃ i : Instr, i.row = r := by
  have hrows : opcodeMap = [Instr.tick, .line 0 .low, .ecfg 0 .lowLevel, .een 0, .edis 0, .irqoff, .irqon, .disp, .scan,
    .rd 0].map Instr.row := rfl
  rw [hrows] at h
  obtain ⟨i, -, hi⟩ := List.mem_map.mp h
  exact ⟨i, hi⟩

/-- A row is known by its mnemonic. -/
theorem row_eq_of_mnemonic_eq : ∀ r ∈ opcodeMap, ∀ q ∈ opcodeMap, r.mnemonic = q.mnemonic → r = q := by decide

/-- Every mask of the map covers the opcode field. -/
theorem mask_covers_opcode : ∀ r ∈ opcodeMap, r.mask.extractLsb' 12 4 = 15#4 := by decide

/-! ### What the decoder accepts -/

/-- The command with its operands read from the fields of `w` (rule R72). -/
def Instr.readFrom (w : Word) : Instr → Instr
  | .line _ _ => .line (lnField w) (lvField w)
  | .ecfg _ _ => .ecfg (lnField w) (kdField w)
  | .een _ => .een (lnField w)
  | .edis _ => .edis (lnField w)
  | .rd _ => .rd (adField w)
  | i => i

@[simp] theorem Instr.readFrom_mnemonic (w : Word) (i : Instr) : (i.readFrom w).mnemonic = i.mnemonic := by
  cases i <;> rfl

/-- A word that matches a command's row decodes to that command, its operands read from the word. -/
theorem decode_of_match {w : Word} {i : Instr} (h : w &&& i.row.mask = i.row.pattern) :
    decode w = .ok (i.readFrom w) := by
  have hop := opField_of_match h (mask_covers_opcode _ i.row_mem_opcodeMap)
  unfold decode
  rw [hop]
  cases i
  case line | ecfg | een | edis | rd =>
    simp only [Instr.row]
    exact if_pos h
  all_goals exact if_pos ((and_full_mask w).symm.trans h)

/-- Decoding, in one line: the row matches and every operand is its field (rules R73, R79). -/
theorem decode_eq_ok_iff {w : Word} {i : Instr} :
    decode w = .ok i ↔ w &&& i.row.mask = i.row.pattern ∧ i.readFrom w = i := by
  constructor
  · intro h
    unfold decode at h
    split at h
    case h_11 => cases h
    all_goals
      obtain ⟨hw, rfl⟩ := ok_of_guard h
    case h_2 | h_3 | h_4 | h_5 | h_10 => exact ⟨hw, rfl⟩
    all_goals exact ⟨(and_full_mask w).trans hw, rfl⟩
  · rintro ⟨hmatch, hread⟩
    rw [decode_of_match hmatch, hread]

/-- A command without operands is the decoding of its pattern alone. -/
theorem decode_eq_ok_iff_eq {w : Word} {i : Instr} (hmask : i.row.mask = 0xFFFF#16) (hread : i.readFrom w = i) :
    decode w = .ok i ↔ w = i.row.pattern := by
  rw [decode_eq_ok_iff, hmask, and_full_mask, and_iff_left hread]

/-- A well-formed command is the decoding of its own word. -/
theorem decode_encode {i : Instr} (h : i.wf = true) : decode (encode i) = .ok i := by
  cases i with
  | line ln lv =>
    have hln : ln < 4 := of_decide_eq_true h
    cases lv <;> interval_cases ln <;> rfl
  | ecfg ln kd =>
    have hln : ln < 4 := of_decide_eq_true h
    cases kd <;> interval_cases ln <;> rfl
  | een ln | edis ln =>
    have hln : ln < 4 := of_decide_eq_true h
    interval_cases ln <;> rfl
  | rd ad =>
    have had : ad < 16 := of_decide_eq_true h
    interval_cases ad <;> rfl
  | tick | irqoff | irqon | disp | scan => rfl

/-! ### What the decoder refuses -/

/-- The opcodes of rule R74. -/
def reservedOpcodes : List Nat := [0x0, 0xB, 0xC, 0xD, 0xE, 0xF]

/-- No row of the map has a reserved opcode. -/
theorem pattern_not_reserved : ∀ r ∈ opcodeMap, opField r.pattern ∉ reservedOpcodes := by decide

/-- A word that decodes has an assigned opcode. -/
theorem not_reserved_of_decode {w : Word} {i : Instr} (h : decode w = .ok i) : opField w ∉ reservedOpcodes := by
  obtain ⟨hmatch, -⟩ := decode_eq_ok_iff.mp h
  rw [opField_of_match hmatch (mask_covers_opcode _ i.row_mem_opcodeMap)]
  exact pattern_not_reserved _ i.row_mem_opcodeMap

/-- A guarded decoding that refuses gives the guard's reason. -/
theorem error_of_guard {c : Prop} [Decidable c] {i : Instr} {d e : DecodeError}
    (h : (if c then Except.ok i else Except.error d) = Except.error e) : e = d := by
  split at h
  next => cases h
  next => exact (Except.error.inj h).symm

/-- The opcode of a refused word fixes the reason: reserved, or a must-be-zero bit (rules R74, R75). -/
theorem error_of_decode {w : Word} {e : DecodeError} (h : decode w = .error e) :
    e = if opField w ∈ reservedOpcodes then .reservedOpcode (opField w) else .mustBeZero (opField w) := by
  unfold decode at h
  split at h
  case h_11 =>
    have hlt : opField w < 16 := (w.extractLsb' 12 4).isLt
    have hreserved : opField w ∈ reservedOpcodes := by
      simp only [imp_false, reservedOpcodes, List.mem_cons, List.not_mem_nil] at *
      omega
    rw [if_pos hreserved]
    exact (Except.error.inj h).symm
  all_goals
    rename_i hop
    rw [hop]
    exact error_of_guard h

/-! ### The fields of a level and of a kind -/

/-- `LV = 1` is High (rule R72). -/
theorem lvField_eq_high_iff (w : Word) : lvField w = .high ↔ w.getLsbD 4 = true := by
  have hbit : w.extractLsb' 4 1 = BitVec.ofBool (w.getLsbD 4) := by
    ext i hi
    obtain rfl : i = 0 := by omega
    simp
  rw [lvField, fieldOf, hbit]
  cases w.getLsbD 4 <;> decide

/-- `KD` is the code of the kind it names (rule R72). -/
theorem kdField_eq_iff (w : Word) (kd : TriggerKind) :
    kdField w = kd ↔ w.extractLsb' 8 2 = BitVec.ofNat 2 (kindCode kd) := by
  rw [← BitVec.toNat_inj, ← kindCode_kdField]
  cases kdField w <;> cases kd <;> decide

/-- A level is known by whether it is High. -/
theorem LineLevel.eq_iff (a b : LineLevel) : a = b ↔ (b = .high ↔ a = .high) := by
  cases a <;> cases b <;> decide

/-- A kind is known by which of the four it is. -/
theorem TriggerKind.eq_iff (a b : TriggerKind) : a = b ↔
    (b = .lowLevel ↔ a = .lowLevel) ∧ (b = .anyEdge ↔ a = .anyEdge) ∧
    (b = .fallingEdge ↔ a = .fallingEdge) ∧ (b = .risingEdge ↔ a = .risingEdge) := by
  cases a <;> cases b <;> decide

end Sys2Proof

namespace Sys2Proof.Machine

/-! ### Identifiers that the block lacks (rule R76) -/

/-- A command on a number that names no line changes nothing. -/
theorem effect_of_no_line {ln : Nat} (h : lineOf ln = none) (s : State) (lv : LineLevel) (kd : TriggerKind) :
    effect (.line ln lv) s = s ∧ effect (.ecfg ln kd) s = s ∧ effect (.een ln) s = s ∧ effect (.edis ln) s = s := by
  simp only [effect, h, Option.elim, and_self]

/-- A kind without a one-bit code changes nothing on line 2. -/
theorem setSense_of_no_edge {kd : TriggerKind} (h : edgeOfKind kd = none) (s : State) : setSense .l2 kd s = s := by
  simp only [setSense, h]

/-! ### The obligations -/

/-- Settles O9: the row that a word matches is the row of the command it decodes to, and the mnemonic names the row. -/
theorem opcodeMapDecides : Obligations.OpcodeMapDecides := by
  have hdecides : ∀ w : Word, ∀ r ∈ opcodeMap,
      w &&& r.mask = r.pattern ↔ ∃ i, decode w = .ok i ∧ i.mnemonic = r.mnemonic := by
    intro w r hr
    constructor
    · intro hmatch
      obtain ⟨i, rfl⟩ := exists_row_eq hr
      exact ⟨i.readFrom w, decode_of_match hmatch, by simp⟩
    · rintro ⟨i, hd, hname⟩
      obtain ⟨hmatch, -⟩ := decode_eq_ok_iff.mp hd
      rwa [row_eq_of_mnemonic_eq i.row i.row_mem_opcodeMap r hr (i.row_mnemonic.trans hname)] at hmatch
  refine ⟨rfl, hdecides, ?overlap, ?agents⟩
  case overlap =>
    intro w r hr q hq hwr hwq
    obtain ⟨i, hi, hir⟩ := (hdecides w r hr).mp hwr
    obtain ⟨j, hj, hjq⟩ := (hdecides w q hq).mp hwq
    obtain rfl : i = j := Except.ok.inj (hi.symm.trans hj)
    exact row_eq_of_mnemonic_eq r hr q hq (hir.symm.trans hjq)
  case agents =>
    intro i
    cases i <;> simp [Instr.agent, Instr.mnemonic]

/-- Settles O8: a word that decodes matches a row, which has an assigned opcode; for any other word the opcode gives the
reason. -/
theorem reservedAndMalformedWordsAreRefused : Obligations.ReservedAndMalformedWordsAreRefused := by
  refine ⟨fun w hop => ?reserved, fun w hop hno => ?malformed, rfl, rfl⟩
  case reserved =>
    cases hd : decode w with
    | ok i => exact absurd hop (not_reserved_of_decode hd)
    | error e => exact congrArg Except.error ((error_of_decode hd).trans (if_pos hop))
  case malformed =>
    cases hd : decode w with
    | ok i =>
      obtain ⟨hmatch, -⟩ := decode_eq_ok_iff.mp hd
      exact absurd hmatch (hno _ i.row_mem_opcodeMap)
    | error e => exact congrArg Except.error ((error_of_decode hd).trans (if_neg hop))

/-- Settles O10: each clause is `decode_eq_ok_iff` at one command, its operands taken one by one. -/
theorem decodeReadsEveryField : Obligations.DecodeReadsEveryField := by
  intro w
  refine ⟨decode_eq_ok_iff_eq rfl rfl, fun ln lv => ?line, fun ln kd => ?ecfg, fun n => ?een, fun n => ?edis,
    decode_eq_ok_iff_eq rfl rfl, decode_eq_ok_iff_eq rfl rfl, decode_eq_ok_iff_eq rfl rfl, decode_eq_ok_iff_eq rfl rfl,
    fun n => ?rd⟩
  case line =>
    rw [decode_eq_ok_iff, ← lvField_eq_high_iff, ← LineLevel.eq_iff, Instr.readFrom, Instr.line.injEq, eq_comm (a := ln)]
    rfl
  case ecfg =>
    rw [decode_eq_ok_iff, Instr.readFrom, Instr.ecfg.injEq, TriggerKind.eq_iff, eq_comm (a := ln)]
    simp only [kdField_eq_iff]
    rfl
  case een | edis | rd =>
    simp only [decode_eq_ok_iff, Instr.readFrom, Instr.een.injEq, Instr.edis.injEq, Instr.rd.injEq, eq_comm (b := n)]
    rfl

/-- Settles O14: the number 3 names no line, `LOW` and `ANY` have no code on line 2, and every well-formed command is the
decoding of its own word. -/
theorem outOfRangeIdentifiersChangeNothing : Obligations.OutOfRangeIdentifiersChangeNothing := by
  refine ⟨fun s lv kd => ?unchanged, fun lv kd => ⟨⟨_, decode_encode rfl⟩, ⟨_, decode_encode rfl⟩⟩,
    ⟨_, decode_encode rfl⟩, ⟨_, decode_encode rfl⟩, ⟨_, decode_encode rfl⟩, ⟨_, decode_encode rfl⟩⟩
  obtain ⟨hline, hecfg, heen, hedis⟩ := effect_of_no_line (ln := 3) rfl s lv kd
  simp only [exec_next_iff]
  exact ⟨hline.symm, hecfg.symm, heen.symm, hedis.symm, (setSense_of_no_edge (kd := .lowLevel) rfl s).symm,
    (setSense_of_no_edge (kd := .anyEdge) rfl s).symm⟩

end Sys2Proof.Machine

/-! PROOFS. The clock counter (40_clock.md). First the successor of a ClockValue, carry by carry, and its closed form; then
what `TICK` does and what a `DISP` does when it services the tick; then one `SECOND` pair on the port, and `n` of them. -/
namespace Sys2Proof.Machine

/-! ### The successor of a ClockValue (rule R91) -/

section
variable {c : ClockValue}

theorem advanceValue_no_carry (hs : c.sec.toNat < 59) :
    (advanceValue c).sec.toNat = c.sec.toNat + 1 ∧ (advanceValue c).min = c.min ∧ (advanceValue c).hour = c.hour := by
  have hadd : (c.sec + 1#6).toNat = c.sec.toNat + 1 :=
    BitVec.toNat_add_of_lt (by simp only [BitVec.toNat_ofNat]; omega)
  rw [advanceValue, if_pos (by omega)]
  exact ⟨hadd, rfl, rfl⟩

theorem advanceValue_carry_to_minute (hs : c.sec.toNat = 59) (hm : c.min.toNat < 59) :
    (advanceValue c).sec = 0 ∧ (advanceValue c).min.toNat = c.min.toNat + 1 ∧ (advanceValue c).hour = c.hour := by
  have hadd : (c.min + 1#6).toNat = c.min.toNat + 1 :=
    BitVec.toNat_add_of_lt (by simp only [BitVec.toNat_ofNat]; omega)
  rw [advanceValue, if_neg (by omega), if_pos (by omega)]
  exact ⟨rfl, hadd, rfl⟩

theorem advanceValue_carry_to_hour (hs : c.sec.toNat = 59) (hm : c.min.toNat = 59) (hh : c.hour.toNat < 23) :
    (advanceValue c).sec = 0 ∧ (advanceValue c).min = 0 ∧ (advanceValue c).hour.toNat = c.hour.toNat + 1 := by
  have hadd : (c.hour + 1#5).toNat = c.hour.toNat + 1 :=
    BitVec.toNat_add_of_lt (by simp only [BitVec.toNat_ofNat]; omega)
  rw [advanceValue, if_neg (by omega), if_neg (by omega), if_pos (by omega)]
  exact ⟨rfl, rfl, hadd⟩

theorem advanceValue_wraps (hs : c.sec.toNat = 59) (hm : c.min.toNat = 59) (hh : c.hour.toNat = 23) :
    (advanceValue c).sec = 0 ∧ (advanceValue c).min = 0 ∧ (advanceValue c).hour = 0 := by
  rw [advanceValue, if_neg (by omega), if_neg (by omega), if_neg (by omega)]
  exact ⟨rfl, rfl, rfl⟩

/-- The closed form of rule R91, one carry after the other. -/
theorem secondsOfDay_advanceValue (h : c.valid = true) :
    secondsOfDay (advanceValue c) = (secondsOfDay c + 1) % 86400 := by
  obtain ⟨hs, hm, hh⟩ := c.valid_iff.mp h
  have hzero : (0 : BitVec 6).toNat = 0 := rfl
  unfold secondsOfDay
  obtain hs | hs := Nat.lt_or_eq_of_le hs
  · obtain ⟨hsec, hmin, hhour⟩ := advanceValue_no_carry hs
    rw [hsec, hmin, hhour]
    omega
  obtain hm | hm := Nat.lt_or_eq_of_le hm
  · obtain ⟨hsec, hmin, hhour⟩ := advanceValue_carry_to_minute hs hm
    rw [hsec, hmin, hhour, hs, hzero]
    omega
  obtain hh | hh := Nat.lt_or_eq_of_le hh
  · obtain ⟨hsec, hmin, hhour⟩ := advanceValue_carry_to_hour hs hm hh
    rw [hsec, hmin, hhour, hs, hm, hzero]
    omega
  · obtain ⟨hsec, hmin, hhour⟩ := advanceValue_wraps hs hm hh
    rw [hsec, hmin, hhour, hs, hm, hh]
    rfl

theorem iterate_advanceValue_valid (h : c.valid = true) (n : Nat) : (advanceValue^[n] c).valid = true :=
  Function.Iterate.rec (fun d : ClockValue => d.valid = true) h (fun _ => advanceValue_valid) n

/-- After `n` successors the clock is `n` seconds later, modulo 24 hours. -/
theorem secondsOfDay_iterate_advanceValue (h : c.valid = true) (n : Nat) :
    secondsOfDay (advanceValue^[n] c) % 86400 = (secondsOfDay c + n) % 86400 := by
  induction n with
  | zero => rfl
  | succ n ih =>
    rw [Function.iterate_succ_apply', secondsOfDay_advanceValue (iterate_advanceValue_valid h n)]
    omega

/-- The fields of a legal ClockValue from its seconds of the day (rule R91's closed form). -/
theorem fields_of_secondsOfDay (h : c.valid = true) {n : Nat} (hn : secondsOfDay c % 86400 = n % 86400) :
    c.hour.toNat = n % 86400 / 3600 ∧ c.min.toNat = n % 86400 / 60 % 60 ∧ c.sec.toNat = n % 86400 % 60 := by
  obtain ⟨hs, hm, hh⟩ := c.valid_iff.mp h
  unfold secondsOfDay at hn
  omega

end

/-! ### A tick is latched and serviced (rules R90, R92, R150) -/

section
variable {s : State}

theorem effect_tick_of_clear (hg : s.gate = .running) (hp : s.tickPend = false) :
    effect .tick s = { s with tickPend := true } := by
  simp only [effect, hg, if_true, latchTick_eq, hp, Bool.or_false]

theorem effect_tick_of_latched (hg : s.gate = .running) (hp : s.tickPend = true) :
    effect .tick s = { s with tickOvr := true } := by
  simp only [effect, hg, if_true, latchTick_eq, hp, Bool.or_true]

theorem effect_tick_of_paused (hg : s.gate = .paused) : effect .tick s = s := by
  simp only [effect, hg, reduceCtorEq, if_false]

/-- With no line requesting, a latched tick is the source serviced. -/
theorem effect_disp_of_latched_tick (hie : s.ie = true) (hline : noLineRequest s) (hp : s.tickPend = true) :
    effect .disp s = { s with tickPend := false, clock := advanceValue s.clock } := by
  have hsel : selectSource s = some .tick :=
    selectSource_eq_some_tick.mpr ⟨hline .l0, hline .l1, hline .l2, hp⟩
  rw [effect_disp_of_selected hie hsel, service_eq]

end

/-- Only a `DISP` changes the clock (rules R92, R93). -/
theorem eq_disp_of_clock_ne {i : Instr} {s t : State} (h : exec i s = .next t) (hc : t.clock ≠ s.clock) : i = .disp := by
  by_contra hi
  obtain ⟨hclock, -, -⟩ := effect_clock s hi
  rw [exec_next_iff.mp h] at hc
  exact hc hclock

/-- Of the words with `OP = 0x1` only 0x1000 is a command (rules R75, R90). -/
theorem decode_of_tick_opcode {w : Word} (h : opField w = 1) :
    decode w = if w = 0x1000#16 then .ok .tick else .error (.mustBeZero 1) := by
  simp only [decode, h]

/-! ### `SECOND` pairs on the port (rules R50, R81, R94) -/

/-- A presented word that decodes is taken from the port and its command runs. -/
theorem step_of_word {s : State} {w : Word} {rest : List Word} {i : Instr} (hport : s.port = w :: rest)
    (hdec : decode w = .ok i) (href : s.refused = false) (hv : s.clock.valid = true) :
    step s = .next (effect i { s with port := rest }) := by
  simp only [step, takeWord, hport, runWord, href, Bool.false_eq_true, if_false, hv, if_true, hdec, exec_eq_effect]

/-- Where rule R94 starts a count, and where every `SECOND` leaves it: Running, interrupts enabled, no request, and a run
that takes commands. -/
structure ReadyToCount (s : State) : Prop where
  running : s.gate = .running
  no_tick : s.tickPend = false
  enabled : s.ie = true
  no_line : noLineRequest s
  not_refused : s.refused = false
  clock_valid : s.clock.valid = true

theorem ReadyToCount.advance {s : State} (h : ReadyToCount s) (ws : List Word) :
    ReadyToCount { s with port := ws, clock := advanceValue s.clock } :=
  { h with clock_valid := advanceValue_valid h.clock_valid }

/-- The `TICK` of a `SECOND` is latched. -/
theorem ReadyToCount.step_tick {s : State} {ws : List Word} (h : ReadyToCount s) (hport : s.port = encode .tick :: ws) :
    step s = .next { s with port := ws, tickPend := true } := by
  rw [step_of_word hport (decode_encode rfl) h.not_refused h.clock_valid, effect_tick_of_clear]
  · exact h.running
  · exact h.no_tick

/-- The `DISP` of a `SECOND` services the tick. -/
theorem ReadyToCount.step_disp {s : State} (h : ReadyToCount s) (ws : List Word) :
    step { s with port := encode .disp :: ws, tickPend := true } =
      .next { s with port := ws, clock := advanceValue s.clock } := by
  refine Eq.trans (step_of_word rfl (decode_encode rfl) h.not_refused h.clock_valid) ?_
  rw [effect_disp_of_latched_tick]
  · simp only [h.no_tick]
  · exact h.enabled
  · exact h.no_line
  · rfl

/-- Two steps run one `SECOND`, which writes the clock's successor and nothing else. -/
theorem ReadyToCount.run_second {s : State} {ws : List Word} (h : ReadyToCount s)
    (hport : s.port = wordsOf pseudoSecond ++ ws) (k : Nat) :
    Host.Core.run core (k + 2) s = Host.Core.run core k { s with port := ws, clock := advanceValue s.clock } :=
  (core_run_next (h.step_tick hport) (k + 1)).trans (core_run_next (h.step_disp ws) k)

/-- The words of `n + 1` blocks are those of one block and of `n` more. -/
theorem wordsOf_repeatBlock_succ (n : Nat) (is : List Instr) :
    wordsOf (repeatBlock (n + 1) is) = wordsOf is ++ wordsOf (repeatBlock n is) := by
  simp only [wordsOf, repeatBlock, List.replicate_succ, List.flatten_cons, List.map_append]

/-- `2n` steps run `n` `SECOND` pairs. -/
theorem ReadyToCount.run_seconds {s : State} (h : ReadyToCount s) (n : Nat)
    (hport : s.port = wordsOf (repeatBlock n pseudoSecond)) :
    Host.Core.run core (2 * n) s = .next { s with port := [], clock := advanceValue^[n] s.clock } := by
  induction n generalizing s with
  | zero => rw [← show s.port = [] from hport]; rfl
  | succ n ih =>
    rw [wordsOf_repeatBlock_succ] at hport
    exact (h.run_second hport (2 * n)).trans (ih (h.advance _) rfl)

/-! ### The obligations -/

/-- Settles O17: one lemma per carry, then the range and the closed form. -/
theorem advanceIsOneSecondModuloADay : Obligations.AdvanceIsOneSecondModuloADay := by
  intro c hs hm hh
  have hv : c.valid = true := c.valid_iff.mpr ⟨hs, hm, hh⟩
  obtain ⟨hsec, hmin, hhour⟩ := (advanceValue c).valid_iff.mp (advanceValue_valid hv)
  exact ⟨advanceValue_no_carry, advanceValue_carry_to_minute, advanceValue_carry_to_hour, advanceValue_wraps,
    hsec, hmin, hhour, secondsOfDay_advanceValue hv⟩

/-- Settles O21: with no line requesting the tick is the source selected, and its handler writes the successor. -/
theorem tickHandlerAdvancesTheClock : Obligations.TickHandlerAdvancesTheClock := by
  refine ⟨fun s hie hline hp hv => ?_, fun _ _ _ => eq_disp_of_clock_ne⟩
  exact ⟨_, exec_next_iff.mpr (effect_disp_of_latched_tick hie hline hp).symm, rfl, advanceValue_valid hv,
    secondsOfDay_advanceValue hv⟩

/-- Settles O23: `n` pairs write the `n`-th successor of midnight, whose seconds of the day give its fields. -/
theorem countingLaw : Obligations.CountingLaw := by
  intro n s hclock hg hp hie hline href hport
  have hv : s.clock.valid = true := by rw [hclock]; rfl
  have hsod : secondsOfDay s.clock = 0 := by rw [hclock]; rfl
  have hcount := secondsOfDay_iterate_advanceValue hv n
  rw [hsod, Nat.zero_add] at hcount
  obtain ⟨hhour, hmin, hsec⟩ := fields_of_secondsOfDay (iterate_advanceValue_valid hv n) hcount
  have hready : ReadyToCount s := ⟨hg, hp, hie, hline, href, hv⟩
  exact ⟨_, hready.run_seconds n hport, hhour, hmin, hsec, rfl⟩

/-- Settles O16: the gate and the latch decide what a `TICK` does; its opcode decides the word. -/
theorem tickLatchesOrIsIgnored : Obligations.TickLatchesOrIsIgnored := by
  simp only [Obligations.TickLatchesOrIsIgnored, exec_next_iff]
  refine ⟨fun s => ⟨fun hg hp => (effect_tick_of_clear hg hp).symm, fun hg hp => (effect_tick_of_latched hg hp).symm,
    fun hg => (effect_tick_of_paused hg).symm⟩, fun w hop => decode_of_tick_opcode ?_⟩
  exact congrArg BitVec.toNat hop

/-- Settles O18: nothing goes before the Reset line, and a second service finds what the first one wrote. -/
theorem resetHandlerZeroesTheClock : Obligations.ResetHandlerZeroesTheClock := by
  refine ⟨fun s hie hreq => ?disp, fun s => rfl, fun _ _ _ => eq_disp_of_clock_ne⟩
  have hsel : selectSource s = some (.line .l0) := selectSource_eq_some_line.mpr ⟨hreq, nofun, nofun⟩
  rw [exec_next_iff, effect_disp_of_selected hie hsel, service_eq]
  rfl

end Sys2Proof.Machine

/-! PROOFS. The timer gate (41_gate.md). First what a `DISP` can do and what servicing Pause or Resume does
to the gate; then the run without its paused ticks; then the phases of the Pause and Resume law: lines sampled, `SECOND`
pairs while Running, anything that requests neither Reset nor Resume while Paused. -/
namespace Sys2Proof.Machine

/-! ### What a `DISP` can do to the gate (rules R110, R111, R150) -/

/-- The inversion of `DISP`: no change, or one selected source serviced with interrupts enabled (rule R150). -/
theorem effect_disp_cases (s : State) :
    effect .disp s = s ∨ ∃ src, s.ie = true ∧ selectSource s = some src ∧ effect .disp s = service src s := by
  cases hie : s.ie with
  | false => exact .inl (effect_disp_of_masked hie)
  | true =>
    cases hsel : selectSource s with
    | none => exact .inl (by simp only [effect, hie, hsel, if_true, Option.elim])
    | some src => exact .inr ⟨src, rfl, rfl, effect_disp_of_selected hie hsel⟩

/-- A service that changes the gate is Pause while Running or Resume while Paused (rule R112). -/
theorem service_gate_ne {src : Source} {s : State} (h : (service src s).gate ≠ s.gate) :
    (s.gate = .running ∧ (service src s).gate = .paused ∧ src = .line .l1) ∨
    (s.gate = .paused ∧ (service src s).gate = .running ∧ src = .line .l2) := by
  rw [service_eq] at h ⊢
  rcases src with (_ | _ | _) | _
  · exact absurd rfl h
  · cases hg : s.gate with
    | paused => exact absurd hg.symm h
    | running => exact .inl ⟨rfl, rfl, rfl⟩
  · cases hg : s.gate with
    | paused => exact .inr ⟨rfl, rfl, rfl⟩
    | running => exact absurd hg.symm h
  · exact absurd rfl h

/-- Only a `DISP` changes the gate or the timer configuration (rules R110, R111). -/
theorem eq_disp_of_gate_or_tcfg_ne {i : Instr} {s t : State} (h : exec i s = .next t)
    (hc : t.gate ≠ s.gate ∨ t.tcfg ≠ s.tcfg) : i = .disp := by
  by_contra hi
  obtain ⟨-, hgate, htcfg⟩ := effect_clock s hi
  rw [exec_next_iff.mp h, hgate, htcfg] at hc
  exact hc.elim (absurd rfl) (absurd rfl)

section
variable {s : State}

/-- While Paused no tick is latched (rule R43(a)). -/
theorem BlockInv.no_tick_of_paused (h : BlockInv s) (hg : s.gate = .paused) : s.tickPend = false := by
  by_contra hp
  have hrun := h.tick_needs_running (Bool.eq_true_of_not_eq_false hp)
  rw [hg] at hrun
  cases hrun

/-- `GATEOFF` while Paused finds the gate and the tick latch as it would write them (rule R110). -/
theorem service_pause_of_paused (h : BlockInv s) (hg : s.gate = .paused) :
    service (.line .l1) s = s.setPend .l1 false := by
  rw [service_eq, ← hg, ← h.no_tick_of_paused hg, State.setPend]

/-- `GATEON` while Running finds the gate and the configuration as it would write them (rules R43(e), R111). -/
theorem service_resume_of_running (h : BlockInv s) (hg : s.gate = .running) :
    service (.line .l2) s = s.setPend .l2 false := by
  rw [service_eq, ← hg, ← h.cfg_constant, State.setPend]

end

/-! ### The run without its paused ticks (rule R113) -/

/-- A paused tick is dropped; every other command stays, and the rest is filtered from the command's next state. -/
theorem withoutPausedTicks_cons (i : Instr) (is : List Instr) (s : State) :
    withoutPausedTicks (i :: is) s =
      if i = .tick ∧ s.gate = .paused then withoutPausedTicks is (effect i s)
      else i :: withoutPausedTicks is (effect i s) := by
  simp only [withoutPausedTicks, exec_eq_effect]

/-- Dropping the paused ticks drops commands that change nothing (rule R90). -/
theorem effects_withoutPausedTicks (is : List Instr) (s : State) :
    effects (withoutPausedTicks is s) s = effects is s := by
  induction is generalizing s with
  | nil => rfl
  | cons i is ih =>
    rw [withoutPausedTicks_cons]
    split
    next hpaused =>
      obtain ⟨rfl, hg⟩ := hpaused
      have hsame := ih (effect .tick s)
      rw [effects_cons]
      rwa [effect_tick_of_paused hg] at hsame ⊢
    next => rw [effects_cons, effects_cons, ih]

/-! ### Requests that a service or a sample leaves alone (rules R131, R132, R150) -/

/-- A line's request depends only on that line's enable, latch, level and kind. -/
theorem requestLine_congr_elements {s t : State} {j : LineId} (hen : t.en.get j = s.en.get j)
    (hpend : t.pend.get j = s.pend.get j) (hlast : t.last.get j = s.last.get j) (hkind : kindOf t j = kindOf s j) :
    requestLine t j = requestLine s j := by
  simp only [requestLine, hen, hpend, hlast, hkind]

/-- Servicing a line leaves the requests of the other lines. -/
theorem requestLine_service_line_ne (s : State) {i j : LineId} (hj : j ≠ i) :
    requestLine (service (.line i) s) j = requestLine s j := by
  have hpend : (service (.line i) s).pend = s.pend.set i false := by cases i <;> rfl
  have hlast : (service (.line i) s).last = s.last := by rw [service_frame]
  refine requestLine_congr_elements (by rw [service_en]) ?_ (by rw [hlast]) (kindOf_service _ s j)
  rw [hpend, PerLine.get_set_ne _ _ hj]

/-- A sample of a line leaves the requests of the other lines. -/
theorem requestLine_sampleLine_ne (s : State) {i j : LineId} (lv : LineLevel) (hj : j ≠ i) :
    requestLine (sampleLine i lv s) j = requestLine s j := by
  rw [sampleLine_eq]
  refine requestLine_congr_elements rfl ?_ (PerLine.get_set_ne _ _ hj) (kindOf_congr rfl rfl rfl j)
  simp only [apply_ite (PerLine.get · j), PerLine.get_set_ne _ _ hj, ite_self]

/-! ### `SECOND` pairs as commands (rules R81, R90, R92) -/

theorem repeatBlock_succ (n : Nat) (is : List Instr) : repeatBlock (n + 1) is = is ++ repeatBlock n is := by
  simp only [repeatBlock, List.replicate_succ, List.flatten_cons]

/-- While Running, with interrupts enabled and no request, a `SECOND` writes the clock's successor and nothing else. -/
theorem effects_second {s : State} (hg : s.gate = .running) (hp : s.tickPend = false) (hie : s.ie = true)
    (hline : noLineRequest s) : effects pseudoSecond s = { s with clock := advanceValue s.clock } := by
  rw [pseudoSecond, effects_cons, effect_tick_of_clear hg hp, effects_cons, effects_nil,
    effect_disp_of_latched_tick (s := { s with tickPend := true }) hie hline rfl, ← hp]

/-- From such a state `n` `SECOND` pairs write the clock's `n`-th successor and nothing else. -/
theorem effects_seconds {s : State} (hg : s.gate = .running) (hp : s.tickPend = false) (hie : s.ie = true)
    (hline : noLineRequest s) (n : Nat) :
    effects (repeatBlock n pseudoSecond) s = { s with clock := advanceValue^[n] s.clock } := by
  induction n generalizing s with
  | zero => rfl
  | succ n ih =>
    rw [repeatBlock_succ, effects_append, effects_second hg hp hie hline]
    exact ih (s := { s with clock := advanceValue s.clock }) hg hp hie hline

/-! ### The phases of the Pause and Resume law (rule R115) -/

/-- The count stands at `c` with the gate at `g`: no tick waits to be counted, and interrupts are enabled. -/
structure CountAt (c : ClockValue) (g : Gate) (s : State) : Prop where
  clock : s.clock = c
  gate : s.gate = g
  no_tick : s.tickPend = false
  enabled : s.ie = true

section
variable {c : ClockValue} {g : Gate} {s : State}

/-- A sample counts nothing (rule R132). -/
theorem CountAt.line (h : CountAt c g s) (ln : Nat) (lv : LineLevel) : CountAt c g (effect (.line ln lv) s) := by
  obtain ⟨hclock, hgate, -⟩ := effect_clock (i := .line ln lv) s nofun
  obtain ⟨hie, -, hpend⟩ := effect_flags (.line ln lv) s
  exact ⟨hclock.trans h.clock, hgate.trans h.gate, (hpend nofun nofun).trans h.no_tick,
    (hie nofun nofun).trans h.enabled⟩

theorem CountAt.lines (h : CountAt c g s) {is : List Instr} (his : ∀ i ∈ is, ∃ ln lv, i = .line ln lv) :
    CountAt c g (effects is s) := by
  refine effects_induction is (fun i hi u hu => ?_) s h
  obtain ⟨ln, lv, rfl⟩ := his i hi
  exact hu.line ln lv

theorem CountAt.seconds (h : CountAt c .running s) (hline : noLineRequest s) (n : Nat) :
    CountAt (advanceValue^[n] c) .running (effects (repeatBlock n pseudoSecond) s) := by
  rw [effects_seconds h.gate h.no_tick h.enabled hline, h.clock]
  exact { h with clock := rfl }

/-- Servicing the Pause line pauses the count where it stands (rule R110). -/
theorem CountAt.pause (h : CountAt c g s) : CountAt c .paused (service (.line .l1) s) :=
  ⟨h.clock, rfl, rfl, h.enabled⟩

/-- Servicing the Resume line lets the count go on from where it stands (rule R111). -/
theorem CountAt.resume (h : CountAt c g s) : CountAt c .running (service (.line .l2) s) :=
  ⟨h.clock, rfl, h.no_tick, h.enabled⟩

end

/-- The count is paused at `c`, and neither Reset, which would zero it, nor Resume requests service. -/
structure PausedAt (c : ClockValue) (s : State) : Prop extends CountAt c .paused s where
  no_reset : requestLine s .l0 = false
  no_resume : requestLine s .l2 = false

section
variable {c : ClockValue} {s : State} (h : PausedAt c s)
include h

/-- The Pause line may be serviced again. -/
theorem PausedAt.service_pause : PausedAt c (service (.line .l1) s) where
  toCountAt := h.toCountAt.pause
  no_reset := (requestLine_service_line_ne s (by decide)).trans h.no_reset
  no_resume := (requestLine_service_line_ne s (by decide)).trans h.no_resume

/-- The Pause line may be sampled again. -/
theorem PausedAt.sample_pause (lv : LineLevel) : PausedAt c (effect (.line 1 lv) s) where
  toCountAt := h.toCountAt.line 1 lv
  no_reset := (requestLine_sampleLine_ne s (i := .l1) lv (by decide)).trans h.no_reset
  no_resume := (requestLine_sampleLine_ne s (i := .l1) lv (by decide)).trans h.no_resume

/-- The Pause line is the only source that can be selected (rule R151). -/
theorem PausedAt.eq_pause_of_selected {src : Source} (hsel : selectSource s = some src) : src = .line .l1 := by
  rcases src with (_ | _ | _) | _
  · obtain ⟨hreset, -⟩ := selectSource_eq_some_line.mp hsel
    exact absurd hreset (Bool.eq_false_iff.mp h.no_reset)
  · rfl
  · obtain ⟨hresume, -⟩ := selectSource_eq_some_line.mp hsel
    exact absurd hresume (Bool.eq_false_iff.mp h.no_resume)
  · obtain ⟨-, -, -, htick⟩ := selectSource_eq_some_tick.mp hsel
    exact absurd htick (Bool.eq_false_iff.mp h.no_tick)

theorem PausedAt.disp : PausedAt c (effect .disp s) := by
  obtain hsame | ⟨src, -, hsel, hserved⟩ := effect_disp_cases s
  · rwa [hsame]
  · rw [hserved, h.eq_pause_of_selected hsel]
    exact h.service_pause

/-- Ticks, `DISP` words and presses of the Pause line leave the count paused where it stands. -/
theorem PausedAt.effects {is : List Instr} (his : ∀ i ∈ is, i = .tick ∨ i = .disp ∨ ∃ lv, i = .line 1 lv) :
    PausedAt c (effects is s) := by
  refine effects_induction is (fun i hi u hu => ?_) s h
  obtain rfl | rfl | ⟨lv, rfl⟩ := his i hi
  · rwa [effect_tick_of_paused hu.gate]
  · exact hu.disp
  · exact hu.sample_pause lv

end

/-! ### The obligations -/

/-- Settles O22: only a `DISP` changes the gate, and then by the service of the selected source. -/
theorem gateStateMachine : Obligations.GateStateMachine := by
  refine ⟨fun i s t ht hne => ?_, fun _ => service_pause_of_paused, fun _ => service_resume_of_running⟩
  obtain rfl := eq_disp_of_gate_or_tcfg_ne ht (.inl hne)
  obtain rfl := exec_next_iff.mp ht
  obtain hsame | ⟨src, hie, hsel, hserved⟩ := effect_disp_cases s
  · exact absurd (congrArg State.gate hsame) hne
  · rw [hserved] at hne ⊢
    obtain ⟨hg, hg', rfl⟩ | ⟨hg, hg', rfl⟩ := service_gate_ne hne
    · exact ⟨rfl, hie, .inl ⟨hg, hg', hsel⟩⟩
    · exact ⟨rfl, hie, .inr ⟨hg, hg', hsel⟩⟩

/-- Settles O24: the count goes to `k` seconds, stands there while Paused, and goes on by `m` seconds. -/
theorem pauseResumeLaw : Obligations.PauseResumeLaw := by
  intro s v x k m pausing paused resuming hg hp hie hline hpausing hpaused hresuming hv hpause hreset hresume hx hselect
    hquiet
  rw [execAll_next_iff, effects_append] at hv hx
  have hstart : CountAt s.clock .running s := ⟨rfl, hg, hp, hie⟩
  have hstands : PausedAt (advanceValue^[k] s.clock) (service (.line .l1) v) := by
    refine ⟨CountAt.pause (g := .running) ?_, hreset, hresume⟩
    rw [hv]
    exact (hstart.seconds hline k).lines hpausing
  have hwaiting : CountAt (advanceValue^[k] s.clock) .paused x := by
    rw [hx]
    exact (hstands.effects hpaused).toCountAt.lines hresuming
  have hend := hwaiting.resume.seconds hquiet m
  have hcount := hstart.seconds hline (k + m)
  have hpause_disp : effect .disp v = service (.line .l1) v := effect_disp_of_selected hstands.enabled hpause
  have hresume_disp : effect .disp x = service (.line .l2) x := effect_disp_of_selected hwaiting.enabled hselect
  refine ⟨_, _, execAll_next_iff.mpr rfl, execAll_next_iff.mpr rfl, ?_⟩
  simp only [effects_append, effects_cons, effects_nil, ← hv, hpause_disp, ← hx, hresume_disp]
  rw [hend.clock, hcount.clock, Nat.add_comm, Function.iterate_add_apply]

/-- Settles O26: both runs have the same effects. -/
theorem gateStrategiesAgree : Obligations.GateStrategiesAgree := by
  intro is s
  rw [execAll_eq_effects, execAll_eq_effects, effects_withoutPausedTicks]

/-- Settles O19: nothing that goes before the Pause line requests, so its handler runs. -/
theorem pauseHandlerStopsTheTicks : Obligations.PauseHandlerStopsTheTicks := by
  refine ⟨fun s hie hreset hpause => ?_, fun i s t ht hne => eq_disp_of_gate_or_tcfg_ne ht (.inl hne)⟩
  have hsel : selectSource s = some (.line .l1) := selectSource_eq_some_line.mpr ⟨hpause, fun _ => hreset, nofun⟩
  simp only [exec_next_iff, effect_disp_of_selected hie hsel]
  exact ⟨rfl, fun hg hinv => (service_pause_of_paused hinv hg).symm⟩

/-- Settles O20: nothing that goes before the Resume line requests, so its handler runs. -/
theorem resumeHandlerRestoresTheConfiguration : Obligations.ResumeHandlerRestoresTheConfiguration := by
  refine ⟨fun s hie hreset hpause hresume => ?_, fun _ _ _ => eq_disp_of_gate_or_tcfg_ne⟩
  have hsel : selectSource s = some (.line .l2) :=
    selectSource_eq_some_line.mpr ⟨hresume, nofun, fun _ => ⟨hreset, hpause⟩⟩
  simp only [exec_next_iff, effect_disp_of_selected hie hsel]
  exact ⟨rfl, fun hg hinv => (service_resume_of_running hinv hg).symm⟩

end Sys2Proof.Machine

/-! PROOFS. The edge lines (42_edge_lines.md). First the decoder on the words of one assigned opcode; then what a line
command does on a number that names a line, and the latch after a sample; then the presses of an idle button. -/
namespace Sys2Proof

/-! ### The words of one opcode (rules R73, R75) -/

/-- The words of an assigned opcode: those that match its row are its command, the others are refused. -/
theorem decode_of_opcode {w : Word} (i : Instr) (h : w.extractLsb' 12 4 = i.row.pattern.extractLsb' 12 4) :
    decode w = if w &&& i.row.mask = i.row.pattern then .ok (i.readFrom w)
      else .error (.mustBeZero (opField i.row.pattern)) := by
  have hop : opField w = opField i.row.pattern := congrArg BitVec.toNat h
  unfold decode
  rw [hop]
  cases i
  all_goals
    simp only [Instr.row, and_full_mask]
    rfl

/-- A field that the mask covers is the pattern's field in every matching word. -/
theorem extractLsb'_of_match {w m p : Word} {lo len : Nat} (h : w &&& m = p)
    (hm : m.extractLsb' lo len = BitVec.allOnes len) : w.extractLsb' lo len = p.extractLsb' lo len := by
  rw [← h, BitVec.extractLsb'_and, hm, BitVec.and_allOnes]

/-- A word of an assigned opcode with a 1 in a must-be-zero field of its format is refused (rule R75). -/
theorem decode_of_nonzero_field {w : Word} (i : Instr) (lo len : Nat)
    (h : w.extractLsb' 12 4 = i.row.pattern.extractLsb' 12 4) (hm : i.row.mask.extractLsb' lo len = BitVec.allOnes len)
    (hp : i.row.pattern.extractLsb' lo len = 0#len) (hw : w.extractLsb' lo len ≠ 0#len) :
    decode w = .error (.mustBeZero (opField i.row.pattern)) := by
  rw [decode_of_opcode i h, if_neg]
  intro hmatch
  exact hw ((extractLsb'_of_match hmatch hm).trans hp)

/-- `LV` as its bit (rule R72). -/
theorem lvField_eq_ite (w : Word) : lvField w = if w.getLsbD 4 then .high else .low := by
  split
  next hhigh => exact (lvField_eq_high_iff w).mpr hhigh
  next hlow =>
    cases hlv : lvField w with
    | low => rfl
    | high => exact absurd ((lvField_eq_high_iff w).mp hlv) hlow

end Sys2Proof

namespace Sys2Proof.Machine

/-! ### What a command on a number that names a line does (rules R132, R134, R135) -/

section
variable {ln : Nat} {i : LineId} (hl : lineOf ln = some i) (s : State)
include hl

theorem effect_line_of_lineOf (lv : LineLevel) : effect (.line ln lv) s = sampleLine i lv s := by
  rw [effect, hl, Option.elim]

theorem effect_een_of_lineOf : effect (.een ln) s = s.setEn i true := by
  rw [effect, hl, Option.elim]

theorem effect_edis_of_lineOf : effect (.edis ln) s = (s.setEn i false).setPend i false := by
  rw [effect, hl, Option.elim]

end

/-! ### The latch and the request after a sample (rules R131, R132) -/

/-- The edges of the three edge kinds (rule R132). -/
theorem edgeSeen_iff (kd : TriggerKind) (prev lv : LineLevel) :
    edgeSeen kd prev lv = true ↔ (kd = .anyEdge ∧ lv ≠ prev) ∨ (kd = .fallingEdge ∧ prev = .high ∧ lv = .low) ∨
      (kd = .risingEdge ∧ prev = .low ∧ lv = .high) := by
  cases kd <;> simp [edgeSeen]

@[simp] theorem sampleLine_en (i : LineId) (lv : LineLevel) (s : State) : (sampleLine i lv s).en = s.en := by
  rw [sampleLine_eq]

@[simp] theorem kindOf_sampleLine (i j : LineId) (lv : LineLevel) (s : State) :
    kindOf (sampleLine i lv s) j = kindOf s j := by
  rw [sampleLine_eq]
  exact kindOf_congr rfl rfl rfl j

@[simp] theorem sampleLine_last_get (i : LineId) (lv : LineLevel) (s : State) :
    (sampleLine i lv s).last.get i = lv := by
  rw [sampleLine_eq, PerLine.get_set_same]

/-- With its latch clear, an armed line has it set after a sample exactly when the sample is an edge. -/
theorem sampleLine_pend_get {s : State} {i : LineId} (hen : s.en.get i = true) (hpend : s.pend.get i = false)
    (lv : LineLevel) : (sampleLine i lv s).pend.get i = edgeSeen (kindOf s i) (s.last.get i) lv := by
  rw [sampleLine_eq, hen, Bool.true_and]
  cases edgeSeen (kindOf s i) (s.last.get i) lv with
  | false => exact hpend
  | true => exact PerLine.get_set_same ..

/-- An armed LowLevel line whose last level is Low requests (rule R131). -/
theorem requestLine_of_low {s : State} {i : LineId} (hen : s.en.get i = true) (hk : kindOf s i = .lowLevel)
    (hlast : s.last.get i = .low) : requestLine s i = true := by
  simp only [requestLine, hen, hk, hlast, decide_true, Bool.and_true, Bool.or_true]

/-- With its latch clear, an armed LowLevel line requests after a sample exactly when the sample is Low (rule R137). -/
theorem requestLine_sampleLine_lowLevel {s : State} {i : LineId} (hen : s.en.get i = true)
    (hpend : s.pend.get i = false) (hk : kindOf s i = .lowLevel) (lv : LineLevel) :
    requestLine (sampleLine i lv s) i = true ↔ lv = .low := by
  have hclear : (sampleLine i lv s).pend.get i = false := by rw [sampleLine_pend_get hen hpend, hk, edgeSeen]
  simp [requestLine, hclear, hen, hk]

/-! ### The presses of an idle-high FallingEdge button (rules R132, R136) -/

theorem PerLine.set_set {α : Type} (r : PerLine α) (i : LineId) (v u : α) : (r.set i v).set i u = r.set i u := by
  cases i <;> rfl

/-- Line `i` is an armed FallingEdge button at rest, which is High. -/
structure IdleButton (i : LineId) (s : State) : Prop where
  armed : s.en.get i = true
  falling : kindOf s i = .fallingEdge
  high : s.last.get i = .high

/-- A latch write leaves the button at rest. -/
theorem IdleButton.setPend {i : LineId} {s : State} (h : IdleButton i s) : IdleButton i (s.setPend i true) :=
  ⟨h.armed, (kindOf_congr rfl rfl rfl i).trans h.falling, h.high⟩

section
variable {ln : Nat} {i : LineId} {s : State}

/-- A High sample is no edge of a FallingEdge line: it only records its level. -/
theorem sampleLine_high_of_falling (hk : kindOf s i = .fallingEdge) : sampleLine i .high s = s.setLast i .high := by
  simp [sampleLine, hk, edgeSeen]

/-- A `PRESS` sets the latch: its Low sample is the edge, and its High sample restores the level. -/
theorem effects_press (hl : lineOf ln = some i) (h : IdleButton i s) :
    effects (pseudoPress ln) s = s.setPend i true := by
  have hpush : sampleLine i .low s = (s.setLast i .low).setPend i true := by
    rw [sampleLine, h.armed, h.falling, h.high]
    rfl
  have hkind : kindOf ((s.setLast i .low).setPend i true) i = .fallingEdge :=
    (kindOf_congr rfl rfl rfl i).trans h.falling
  have hlast : (s.last.set i .low).set i .high = s.last := by rw [PerLine.set_set, ← h.high, PerLine.set_get]
  calc effects (pseudoPress ln) s
      = sampleLine i .high (sampleLine i .low s) := by
        simp only [pseudoPress, effects_cons, effects_nil, effect_line_of_lineOf hl]
    _ = ((s.setLast i .low).setPend i true).setLast i .high := by rw [hpush, sampleLine_high_of_falling hkind]
    _ = s.setPend i true := by simp only [State.setLast, State.setPend, hlast]

/-- Whole presses leave the button as it was but for its latch, set if there was one. -/
theorem effects_wholePresses (hl : lineOf ln = some i) (h : IdleButton i s) {levels : List LineLevel}
    (hwhole : wholePresses levels = true) :
    effects (levels.map (.line ln)) s =
      { s with pend := if levels = [] then s.pend else s.pend.set i true } := by
  induction levels using wholePresses.induct generalizing s with
  | case1 => rfl
  | case2 levels ih =>
    calc effects ((.low :: .high :: levels).map (.line ln)) s
        = effects (levels.map (.line ln)) (effects (pseudoPress ln) s) := rfl
      _ = effects (levels.map (.line ln)) (s.setPend i true) := by rw [effects_press hl h]
      _ = { s.setPend i true with pend := if levels = [] then s.pend.set i true else (s.pend.set i true).set i true } :=
        ih h.setPend hwhole
      _ = { s with pend := s.pend.set i true } := by rw [PerLine.set_set, ite_self]; rfl
  | case3 levels hnil hpress =>
    rw [wholePresses] at hwhole
    · cases hwhole
    · exact hnil
    · exact hpress

end

/-- Samples of one line number are its levels, command by command. -/
theorem map_samplesOf {ln : Nat} {is : List Instr} (h : ∀ c ∈ is, ∃ lv, c = .line ln lv) :
    (samplesOf ln is).map (.line ln) = is := by
  induction is with
  | nil => rfl
  | cons c is ih =>
    obtain ⟨⟨lv, rfl⟩, hrest⟩ := List.forall_mem_cons.mp h
    rw [samplesOf, if_pos rfl, List.map_cons, ih hrest]

/-! ### The obligations -/

/-- Settles O31: the latch is `edgeSeen`, which has a row for each kind and each pair of levels. -/
theorem edgeTable : Obligations.EdgeTable := by
  intro s t ln i lv hl hen hpend ht
  obtain rfl : t = sampleLine i lv s := (exec_next_iff.mp ht).trans (effect_line_of_lineOf hl s lv)
  refine ⟨fun hk => ⟨?latch, requestLine_sampleLine_lowLevel hen hpend hk lv⟩, fun hk => ?any, fun hk => ?fall,
    fun hk => ?rise⟩ <;> rw [sampleLine_pend_get hen hpend, hk]
  case latch => rfl
  all_goals cases s.last.get i <;> cases lv <;> decide

/-- Settles O33: the commands are the samples of whole presses. -/
theorem cleanPressesMergeIntoOneRequest : Obligations.CleanPressesMergeIntoOneRequest := by
  intro s ln i is hl hen hk hlast hclean hsamples
  have hpresses := effects_wholePresses hl ⟨hen, hk, hlast⟩ (hclean ln)
  rw [map_samplesOf hsamples] at hpresses
  rw [execAll_eq_effects, hpresses]
  simp only [← List.map_eq_nil_iff (f := Instr.line ln), map_samplesOf hsamples]

/-- Settles O27: a sample of a line is `sampleLine`; 3 names no line; the words are those of `LINE`'s row. -/
theorem lineSampleSetsTheLatchOnItsEdge : Obligations.LineSampleSetsTheLatchOnItsEdge := by
  refine ⟨fun s ln i lv hl => ?sample, fun s lv => ?none, fun w hop => ?word, fun w hop hbits => ?malformed⟩
  case sample =>
    rw [exec_eq_effect, effect_line_of_lineOf hl, sampleLine_eq]
    simp only [Bool.and_eq_true, edgeSeen_iff]
  case none => exact exec_eq_effect ..
  case word =>
    rw [← lvField_eq_ite]
    exact decode_of_opcode (.line 0 .low) hop
  case malformed =>
    obtain hhigh | hlow := hbits
    · exact decode_of_nonzero_field (.line 0 .low) 5 7 hop rfl rfl hhigh
    · exact decode_of_nonzero_field (.line 0 .low) 2 2 hop rfl rfl hlow

/-- Settles O28: the write is `setSense`, line by line; the words are those of `ECFG`'s row. -/
theorem triggerKindIsWritten : Obligations.TriggerKindIsWritten := by
  refine ⟨fun s kd => ?write, fun w hop => decode_of_opcode (.ecfg 0 .lowLevel) hop, fun w hop hbits => ?malformed⟩
  case write =>
    simp only [exec_next_iff]
    exact ⟨rfl, rfl, (setSense_of_no_edge (kd := .lowLevel) rfl s).symm,
      (setSense_of_no_edge (kd := .anyEdge) rfl s).symm, rfl, rfl, rfl⟩
  case malformed =>
    obtain hhigh | hlow := hbits
    · exact decode_of_nonzero_field (.ecfg 0 .lowLevel) 10 2 hop rfl rfl hhigh
    · exact decode_of_nonzero_field (.ecfg 0 .lowLevel) 2 6 hop rfl rfl hlow

/-- Settles O29: arming writes the enable alone, and a LowLevel line at Low then meets rule R131. -/
theorem armingSetsNoLatch : Obligations.ArmingSetsNoLatch := by
  refine ⟨fun s ln i hl => ⟨s.setEn i true, ?arm, rfl, fun hk hlast => ?request⟩, fun s => exec_eq_effect ..,
    fun w hop => decode_of_opcode (.een 0) hop, fun w hop => decode_of_nonzero_field (.een 0) 2 10 hop rfl rfl⟩
  case arm =>
    rw [exec_eq_effect, effect_een_of_lineOf hl]
  case request =>
    exact requestLine_of_low (PerLine.get_set_same ..) ((kindOf_congr rfl rfl rfl i).trans hk) hlast

/-- Settles O30: disarming writes the enable and the latch alone, and a disarmed line requests nothing. -/
theorem disarmingDiscardsTheLatch : Obligations.DisarmingDiscardsTheLatch := by
  refine ⟨fun s ln i hl => ⟨(s.setEn i false).setPend i false, ?disarm, rfl, ?request⟩, fun s => exec_eq_effect ..,
    fun w hop => decode_of_opcode (.edis 0) hop, fun w hop => decode_of_nonzero_field (.edis 0) 2 10 hop rfl rfl⟩
  case disarm =>
    rw [exec_eq_effect, effect_edis_of_lineOf hl]
  case request =>
    rw [requestLine, State.setPend_en, State.setEn_en, PerLine.get_set_same, Bool.false_and]

end Sys2Proof.Machine

/-! PROOFS. The interrupt dispatch (43_dispatch.md). First the words of an opcode without operands; then what `DISP` does
when `select()` returns none, and when it returns a source. -/
namespace Sys2Proof

/-- Of the words of an opcode without operands only the pattern is its command (rule R75). -/
theorem decode_of_opcode_without_operands {w : Word} (i : Instr)
    (h : w.extractLsb' 12 4 = i.row.pattern.extractLsb' 12 4) (hmask : i.row.mask = 0xFFFF#16)
    (hread : i.readFrom w = i) :
    decode w = if w = i.row.pattern then .ok i else .error (.mustBeZero (opField i.row.pattern)) := by
  rw [decode_of_opcode i h, hmask, and_full_mask, hread]

end Sys2Proof

namespace Sys2Proof.Machine

/-! ### What `DISP` does with the answer of `select()` (rules R150, R151) -/

section
variable {s : State}

/-- With nothing requesting, no source is selected (rule R151). -/
theorem selectSource_eq_none (hline : noLineRequest s) (hp : s.tickPend = false) : selectSource s = none := by
  simp only [selectSource, requestTick, hline .l0, hline .l1, hline .l2, hp, Bool.false_eq_true, if_false]

/-- With no source selected a `DISP` changes nothing (rule R150). -/
theorem effect_disp_of_none (hsel : selectSource s = none) : effect .disp s = s := by
  simp only [effect, hsel, Option.elim, ite_self]

/-- With `IE = 1` a `DISP` answers the service of the selected source (rule R150). -/
theorem exec_disp_of_selected {src : Source} (hie : s.ie = true) (hsel : selectSource s = some src) :
    exec .disp s = .next (service src s) := by
  rw [exec_eq_effect, effect_disp_of_selected hie hsel]

end

/-! ### The obligations -/

/-- Settles O34: each case of `select()` names its source, whose service is the latch cleared and the handler run. -/
theorem dispatchServicesTheFirstRequest : Obligations.DispatchServicesTheFirstRequest := by
  refine ⟨fun s => ⟨fun hie => ?masked, fun hie hreset => ?reset, fun hie hreset hpause => ?pause,
    fun hie hreset hpause hresume => ?resume, fun hie hline hp => ?tick, fun hie hline hp => ?quiet⟩, fun s => rfl,
    fun w hop => decode_of_opcode_without_operands .disp hop rfl rfl⟩
  case masked => rw [exec_eq_effect, effect_disp_of_masked hie]
  case reset => exact exec_disp_of_selected hie (selectSource_eq_some_line.mpr ⟨hreset, nofun, nofun⟩)
  case pause => exact exec_disp_of_selected hie (selectSource_eq_some_line.mpr ⟨hpause, fun _ => hreset, nofun⟩)
  case resume =>
    exact exec_disp_of_selected hie (selectSource_eq_some_line.mpr ⟨hresume, nofun, fun _ => ⟨hreset, hpause⟩⟩)
  case tick =>
    exact exec_disp_of_selected hie (selectSource_eq_some_tick.mpr ⟨hline .l0, hline .l1, hline .l2, hp⟩)
  case quiet => rw [exec_eq_effect, effect_disp_of_none (selectSource_eq_none hline hp)]

/-- Settles O35: the effect of each command is the write; the words are those of the two rows. -/
theorem maskCommandsWriteOnlyTheEnable : Obligations.MaskCommandsWriteOnlyTheEnable :=
  ⟨fun s => ⟨exec_eq_effect .irqoff s, exec_eq_effect .irqon s⟩,
    fun _ hop => decode_of_opcode_without_operands .irqoff hop rfl rfl,
    fun _ hop => decode_of_opcode_without_operands .irqon hop rfl rfl⟩

end Sys2Proof.Machine

/-! PROOFS. The scanner (44_scanner.md). First the digits and the select lines as numbers; then where a list of commands
leaves the scanner, and what its visits leave in the display, by induction on the last command. -/
namespace Sys2Proof.Machine

/-! ### Digits and select lines (rules R37, R171) -/

/-- A digit's number: four bits hold every remainder by 10. -/
theorem digitAt_toNat (c : ClockValue) (p : DigitPos) : (digitAt c p).toNat = fieldAt c p / divisorAt p % 10 := by
  rw [digitAt, BitVec.toNat_ofNat]
  omega

/-- `onehot6(p)` selects `p` and no other position. -/
theorem onehot6_getLsbD_iff (p q : DigitPos) : (onehot6 p).getLsbD (posNumber q) = true ↔ q = p := by
  rw [onehot6, ← BitVec.twoPow_eq, BitVec.getLsbD_twoPow]
  simp only [posNumber_lt, decide_true, Bool.true_and, decide_eq_true_eq]
  exact ⟨fun h => (posNumber_inj h).symm, fun h => h ▸ rfl⟩

/-! ### The order of the visits (rules R36, R170) -/

/-- Position `p` is `posNumber p` visits after position 0. -/
theorem iterate_nextPos_posNumber (p : DigitPos) : nextPos^[posNumber p] .secondsOnes = p := by
  cases p <;> rfl

/-- From position 0 a position is left alone by as many visits as its number, or fewer. -/
theorem iterate_nextPos_ne {j : Nat} {p : DigitPos} (h : j < posNumber p) : nextPos^[j] .secondsOnes ≠ p := by
  rintro rfl
  rw [posNumber_iterate_nextPos, posNumber, Nat.zero_add] at h
  exact absurd (Nat.mod_le j 6) h.not_ge

/-- Six visits in a row reach every position. -/
theorem exists_iterate_nextPos_lt (p q : DigitPos) : ∃ j < 6, nextPos^[j] p = q := by
  obtain ⟨k, rfl⟩ := exists_iterate_nextPos p q
  refine ⟨k % 6, Nat.mod_lt k (by decide), posNumber_inj ?_⟩
  rw [posNumber_iterate_nextPos, posNumber_iterate_nextPos, Nat.add_mod_mod]

/-- A command moves the scanner on exactly if it is `SCAN`. -/
theorem effect_pos (i : Instr) (s : State) : (effect i s).pos = if i = .scan then nextPos s.pos else s.pos := by
  split
  next hi => rw [hi, effect, visitPosition_pos]
  next hi => exact (effect_scanner s hi).1

/-- A list of commands moves the scanner on once per `SCAN`. -/
theorem effects_pos (is : List Instr) (s : State) : (effects is s).pos = nextPos^[is.count .scan] s.pos := by
  induction is generalizing s with
  | nil => rfl
  | cons i is ih =>
    rw [effects_cons, ih, effect_pos, List.count_cons]
    by_cases hi : i = .scan
    · simp [hi, Function.iterate_succ_apply]
    · simp [hi]

/-! ### Visits while the clock does not change (rules R173, R174) -/

/-- The clock is unchanged throughout the commands: after each first part of them it is what it was. -/
def ClockKept (is : List Instr) (s : State) : Prop :=
  ∀ js, js <+: is → ∀ u, execAll js s = .next u → u.clock = s.clock

/-- Without a `DISP` the clock is unchanged (rules R22 to R25). -/
theorem effects_clock_of_no_disp {is : List Instr} (h : .disp ∉ is) (s : State) : (effects is s).clock = s.clock :=
  effects_induction (P := fun u => u.clock = s.clock) is
    (fun _ hi u hu => (effect_clock u (ne_of_mem_of_not_mem hi h)).1.trans hu) s rfl

theorem clockKept_of_no_disp {is : List Instr} (h : .disp ∉ is) (s : State) : ClockKept is s := by
  intro js hjs u hu
  rw [execAll_next_iff.mp hu]
  exact effects_clock_of_no_disp (fun hmem => h (hjs.subset hmem)) s

section
variable {is : List Instr} {s : State}

theorem ClockKept.clock_eq (h : ClockKept is s) : (effects is s).clock = s.clock :=
  h is List.prefix_rfl _ (execAll_eq_effects is s)

theorem ClockKept.init {i : Instr} (h : ClockKept (is ++ [i]) s) : ClockKept is s :=
  fun js hjs => h js (hjs.trans (List.prefix_append is [i]))

/-- A position visited since the start shows its digit of the clock; every other position keeps what it showed. -/
theorem ClockKept.vis_get (h : ClockKept is s) (p : DigitPos) : (effects is s).vis.get p =
    if ∃ j < is.count .scan, nextPos^[j] s.pos = p then digitAt s.clock p else s.vis.get p := by
  induction is using List.reverseRecOn with
  | nil => simp
  | append_singleton is i ih =>
    rw [effects_append, effects_cons, effects_nil, effect_vis_get, effects_pos, h.init.clock_eq, ih h.init]
    by_cases hi : i = .scan
    · have hcount : (is ++ [i]).count .scan = is.count .scan + 1 := by simp [hi]
      simp only [hcount, Nat.exists_lt_succ_right, or_comm (b := nextPos^[is.count .scan] s.pos = p), ite_or]
      simp only [hi, true_and]
    · simp [hi]

/-- After `k + 1` visits the position of the last one is selected, and its digit driven. -/
theorem ClockKept.last_visit (h : ClockKept is s) {k : Nat} (hk : is.count .scan = k + 1) :
    (effects is s).bcd = digitAt s.clock (nextPos^[k] s.pos) ∧ (effects is s).sel = onehot6 (nextPos^[k] s.pos) := by
  induction is using List.reverseRecOn with
  | nil => cases hk
  | append_singleton is i ih =>
    rw [effects_append, effects_cons, effects_nil]
    by_cases hi : i = .scan
    · obtain rfl : is.count .scan = k := by simpa [hi] using hk
      rw [hi, effect, visitPosition_bcd, visitPosition_sel, effects_pos, h.init.clock_eq]
      exact ⟨rfl, rfl⟩
    · obtain ⟨-, hsel, hbcd, -⟩ := effect_scanner (effects is s) hi
      rw [hsel, hbcd]
      exact ih h.init (by simpa [hi] using hk)

theorem ClockKept.vis_get_of_visited (h : ClockKept is s) {p : DigitPos}
    (hp : ∃ j < is.count .scan, nextPos^[j] s.pos = p) : (effects is s).vis.get p = digitAt s.clock p := by
  rw [h.vis_get, if_pos hp]

theorem ClockKept.vis_get_of_not_visited (h : ClockKept is s) {p : DigitPos}
    (hp : ∀ j < is.count .scan, nextPos^[j] s.pos ≠ p) : (effects is s).vis.get p = s.vis.get p := by
  rw [h.vis_get, if_neg (fun ⟨j, hj, he⟩ => hp j hj he)]

/-- Six visits or more leave the DisplayFrame of the clock, whatever the display showed and wherever they began. -/
theorem ClockKept.vis_eq_displayFrame (h : ClockKept is s) (hcount : 6 ≤ is.count .scan) :
    (effects is s).vis = displayFrame s.clock := by
  refine DigitFrame.ext_get fun p => ?_
  obtain ⟨j, hj, hp⟩ := exists_iterate_nextPos_lt s.pos p
  rw [displayFrame_get, h.vis_get_of_visited ⟨j, hj.trans_le hcount, hp⟩]

end

/-! ### The obligations -/

/-- Settles O46: from position 0 the visited positions are those with a number below the count of the visits. -/
theorem frameProjectsTheClock : Obligations.FrameProjectsTheClock := by
  intro s t is hpos _ hkept ht
  obtain rfl := execAll_next_iff.mp ht
  have h : ClockKept is s := hkept
  refine ⟨fun p hp => ?visited, fun p hp => ?unvisited, fun p hp => ?last, fun hsix => ⟨?frame, ?back⟩⟩
  case visited => exact h.vis_get_of_visited ⟨posNumber p, hp, hpos ▸ iterate_nextPos_posNumber p⟩
  case unvisited =>
    exact h.vis_get_of_not_visited fun j hj => hpos ▸ iterate_nextPos_ne (hj.trans_le hp)
  case last =>
    have hlast := h.last_visit hp.symm
    rwa [hpos, iterate_nextPos_posNumber] at hlast
  case frame => exact h.vis_eq_displayFrame hsix.ge
  case back => rw [effects_pos, hsix, hpos]; rfl

/-- Settles O47: the visits after the `DISP` go on where the first ones stopped, and do not come round again. -/
theorem tornFrameMixesTwoClocks : Obligations.TornFrameMixesTwoClocks := by
  intro s t before after hpos hbefore hafter hsix ht p
  obtain rfl := execAll_next_iff.mp ht
  rw [effects_append, effects_append, effects_cons, effects_nil]
  set u := effects before s with hu
  obtain ⟨hdpos, -, -, hdvis⟩ := effect_scanner u (i := .disp) (by decide)
  have hupos : (effect .disp u).pos = nextPos^[before.count .scan] .secondsOnes := by
    rw [hdpos, hu, effects_pos, hpos]
  have hlater : ClockKept after (effect .disp u) := clockKept_of_no_disp hafter _
  refine ⟨fun hp => ?old, fun hp => ?new⟩
  case old =>
    have hunvisited : ∀ j < after.count .scan, nextPos^[j] (effect .disp u).pos ≠ p := by
      rintro j hj rfl
      rw [hupos, ← Function.iterate_add_apply, posNumber_iterate_nextPos, posNumber] at hp
      omega
    rw [hlater.vis_get_of_not_visited hunvisited, hdvis]
    exact (clockKept_of_no_disp hbefore s).vis_get_of_visited ⟨posNumber p, hp, hpos ▸ iterate_nextPos_posNumber p⟩
  case new =>
    have hlt := posNumber_lt p
    rw [hlater.clock_eq]
    refine hlater.vis_get_of_visited ⟨posNumber p - before.count .scan, by omega, ?_⟩
    rw [hupos, ← Function.iterate_add_apply, Nat.sub_add_cancel hp, iterate_nextPos_posNumber]

/-- Settles O48: six visits in a row reach every position, from wherever they begin. -/
theorem tornFrameHeals : Obligations.TornFrameHeals := by
  intro s t is hsix hkept ht
  obtain rfl := execAll_next_iff.mp ht
  have h : ClockKept is s := hkept
  rw [h.clock_eq]
  exact h.vis_eq_displayFrame hsix

/-- Settles O44: `SCAN` is one visit; the words are those of its row. -/
theorem scanVisitsOnePosition : Obligations.ScanVisitsOnePosition := by
  refine ⟨fun s => ⟨visitPosition s, rfl, rfl, posNumber_nextPos s.pos, fun p => onehot6_getLsbD_iff s.pos p, rfl,
    DigitFrame.get_set_same .., fun p hp => ?others⟩,
    fun w hop => decode_of_opcode_without_operands .scan hop rfl rfl⟩
  case others => rw [visitPosition_vis, DigitFrame.get_set, if_neg hp]

/-- Settles O45: each digit is its quotient's remainder by 10; the legal ranges bound the quotients. -/
theorem digitOfEachPosition : Obligations.DigitOfEachPosition := by
  intro c hc
  obtain ⟨hsec, hmin, hhour⟩ := c.valid_iff.mp hc
  refine ⟨?_, ?_, ?_, ?_, ?_, ?_, digitAt_le c, ?_, ?_, ?_⟩ <;>
    rw [digitAt_toNat, fieldAt, divisorAt] <;> omega

end Sys2Proof.Machine

/-! PROOFS. The read port (45_readport.md). First a read word as the sum of its fields, joined from the lowest up; then the
words of rule R191's map that join several fields; then the clock words at reset. -/
namespace Sys2Proof.Machine

/-! ### A read word as the sum of its fields (rules R8, R191) -/

/-- The fields of the word lie below bit `k`, and `x` is their sum. -/
structure FieldsBelow (k : Nat) (w : ReadWord) (x : Nat) : Prop where
  /-- The word as a number. -/
  value : w.toNat = x
  /-- The bits from `k` on are 0. -/
  below : w.toNat < 2 ^ k

section
variable {n : Nat}

/-- A field placed at bit 0 is its own value. -/
theorem placeAt_zero_toNat (v : BitVec n) (hn : n ≤ 32) : (placeAt 0 v).toNat = v.toNat := by
  rw [placeAt_toNat 0 v hn, pow_zero, mul_one]

/-- A word of one field at bit 0. -/
theorem fieldsBelow_placeAt_zero (v : BitVec n) (hn : n ≤ 32 := by decide) : FieldsBelow n (placeAt 0 v) v.toNat where
  value := placeAt_zero_toNat v hn
  below := (placeAt_zero_toNat v hn).trans_lt v.isLt

/-- One more field, above those of the word, adds its weighted value. -/
theorem FieldsBelow.or_placeAt {k x : Nat} {w : ReadWord} (h : FieldsBelow k w x) (lo : Nat)
    (v : BitVec n) (hlo : k ≤ lo := by decide) (hn : n + lo ≤ 32 := by decide) :
    FieldsBelow (n + lo) (w ||| placeAt lo v) (x + v.toNat * 2 ^ lo) := by
  have hw : w.toNat < 2 ^ lo := h.below.trans_le (Nat.pow_le_pow_right (by decide) hlo)
  have hsum := or_placeAt_toNat lo w v hn hw
  refine ⟨h.value ▸ hsum, ?_⟩
  calc (w ||| placeAt lo v).toNat = w.toNat + v.toNat * 2 ^ lo := hsum
    _ < (v.toNat + 1) * 2 ^ lo := by rw [add_one_mul]; omega
    _ ≤ 2 ^ n * 2 ^ lo := Nat.mul_le_mul_right _ v.isLt
    _ = 2 ^ (n + lo) := (pow_add ..).symm

end

/-- A trigger kind's code fits its two bits. -/
theorem kindCode_field_toNat (kd : TriggerKind) : (BitVec.ofNat 2 (kindCode kd)).toNat = kindCode kd := by
  cases kd <;> rfl

/-- The code of the one-bit trigger field fits its bit. -/
theorem edgeCode_field_toNat (e : EdgeKind) : (BitVec.ofNat 1 (edgeCode e)).toNat = edgeCode e := by
  cases e <;> rfl

/-- A position's number fits the three bits of `POS`. -/
theorem posNumber_field_toNat (p : DigitPos) : (BitVec.ofNat 3 (posNumber p)).toNat = posNumber p := by
  cases p <;> rfl

/-! ### The words of several fields (rule R191) -/

section
variable (s : State)

theorem clockWord_toNat :
    (clockWord s).toNat = s.clock.hour.toNat * 2 ^ 16 + s.clock.min.toNat * 2 ^ 8 + s.clock.sec.toNat := by
  have hfields := fieldsBelow_placeAt_zero s.clock.sec |>.or_placeAt 8 s.clock.min |>.or_placeAt 16 s.clock.hour
  have hword : clockWord s = placeAt 0 s.clock.sec ||| placeAt 8 s.clock.min ||| placeAt 16 s.clock.hour := by
    rw [clockWord, BitVec.or_comm, BitVec.or_comm (placeAt 16 _), BitVec.or_assoc]
  rw [hword, hfields.value]
  omega

theorem ctrlWord_toNat :
    (ctrlWord s).toNat = (if s.gate = .running then 1 else 0) + s.ie.toNat * 2 + s.tickPend.toNat * 4 +
      s.tickOvr.toNat * 8 + (requestLine s .l0).toNat * 16 + (requestLine s .l1).toNat * 32 +
      (requestLine s .l2).toNat * 64 + (requestTick s).toNat * 128 := by
  have hfields := fieldsBelow_placeAt_zero (gateBit s.gate) |>.or_placeAt 1 (flagBit s.ie)
    |>.or_placeAt 2 (flagBit s.tickPend) |>.or_placeAt 3 (flagBit s.tickOvr)
    |>.or_placeAt 4 (flagBit (requestLine s .l0)) |>.or_placeAt 5 (flagBit (requestLine s .l1))
    |>.or_placeAt 6 (flagBit (requestLine s .l2)) |>.or_placeAt 7 (flagBit (requestTick s))
  rw [ctrlWord, hfields.value]
  simp only [gateBit_toNat, flagBit_toNat]
  rfl

theorem eintWord_toNat :
    (eintWord s).toNat = s.en.l0.toNat + s.en.l1.toNat * 2 + s.en.l2.toNat * 4 +
      s.pend.l0.toNat * 16 + s.pend.l1.toNat * 32 + s.pend.l2.toNat * 64 +
      levelCode s.last.l0 * 256 + levelCode s.last.l1 * 512 + levelCode s.last.l2 * 1024 := by
  have hfields := fieldsBelow_placeAt_zero (flagBit s.en.l0) |>.or_placeAt 1 (flagBit s.en.l1)
    |>.or_placeAt 2 (flagBit s.en.l2) |>.or_placeAt 4 (flagBit s.pend.l0) |>.or_placeAt 5 (flagBit s.pend.l1)
    |>.or_placeAt 6 (flagBit s.pend.l2) |>.or_placeAt 8 (levelBit s.last.l0) |>.or_placeAt 9 (levelBit s.last.l1)
    |>.or_placeAt 10 (levelBit s.last.l2)
  rw [eintWord, hfields.value]
  simp only [flagBit_toNat, levelBit_toNat]
  rfl

theorem esenseWord_toNat :
    (esenseWord s).toNat = kindCode s.sense0 + kindCode s.sense1 * 4 + edgeCode s.sense2 * 16 := by
  have hfields := fieldsBelow_placeAt_zero (BitVec.ofNat 2 (kindCode s.sense0))
    |>.or_placeAt 2 (BitVec.ofNat 2 (kindCode s.sense1)) |>.or_placeAt 4 (BitVec.ofNat 1 (edgeCode s.sense2))
  rw [esenseWord, hfields.value]
  simp only [kindCode_field_toNat, edgeCode_field_toNat]
  rfl

theorem scanoutWord_toNat :
    (scanoutWord s).toNat = posNumber s.pos + s.sel.toNat * 2 ^ 8 + s.bcd.toNat * 2 ^ 16 := by
  have hfields := fieldsBelow_placeAt_zero (BitVec.ofNat 3 (posNumber s.pos)) |>.or_placeAt 8 s.sel
    |>.or_placeAt 16 s.bcd
  rw [scanoutWord, hfields.value, posNumber_field_toNat]

theorem visWord_toNat :
    (visWord s).toNat = s.vis.p0.toNat + s.vis.p1.toNat * 2 ^ 4 + s.vis.p2.toNat * 2 ^ 8 + s.vis.p3.toNat * 2 ^ 12 +
      s.vis.p4.toNat * 2 ^ 16 + s.vis.p5.toNat * 2 ^ 20 := by
  have hfields := fieldsBelow_placeAt_zero s.vis.p0 |>.or_placeAt 4 s.vis.p1 |>.or_placeAt 8 s.vis.p2
    |>.or_placeAt 12 s.vis.p3 |>.or_placeAt 16 s.vis.p4 |>.or_placeAt 20 s.vis.p5
  exact hfields.value

/-- Word 0xB, TPM: the mode code in the upper half, the prescaler code in the lower. -/
theorem regRead_tpm_toNat : (regRead s 0xB).toNat = s.tcfg.tmode.toNat * 2 ^ 16 + s.tcfg.tpre.toNat := by
  have hfields := fieldsBelow_placeAt_zero s.tcfg.tpre |>.or_placeAt 16 s.tcfg.tmode
  exact hfields.value.trans (Nat.add_comm ..)

/-- TPM is the two codes side by side. -/
theorem regRead_tpm : regRead s 0xB = s.tcfg.tmode ++ s.tcfg.tpre := by
  apply BitVec.eq_of_toNat_eq
  rw [regRead_tpm_toNat, BitVec.toNat_append, ← Nat.shiftLeft_add_eq_or_of_lt s.tcfg.tpre.isLt, Nat.shiftLeft_eq]

/-- Every address from 0xC on reads 0 (rule R192). -/
theorem regRead_unassigned {ad : Nat} (h : 0xC ≤ ad) : regRead s ad = 0 := by
  obtain ⟨n, rfl⟩ := Nat.exists_eq_add_of_le' h
  rfl

end

/-! ### The reset column of the map (rules R42, R191) -/

/-- A cleared clock reads 0 field by field and as a whole. -/
theorem regRead_clock_at_reset {ad : Nat} (h : ad ≤ 0x3) : regRead (State.resetWith Config.defaultReset) ad = 0 := by
  interval_cases ad <;> rfl

/-! ### The obligation -/

/-- Settles O49: each address reads its word of the map, which is the sum of its fields; the words are those of `RD`'s
row. -/
theorem readSpaceMap : Obligations.ReadSpaceMap := by
  refine ⟨fun s ad => ⟨regRead s ad, exec_eq_effect (.rd ad) s, ?sec, ?min, ?hour, ?clock, ?ctrl, ?eint, ?esense,
    ?scanout, ?vis, ?tinit, ?tcmp, ?tpm, fun h _ => regRead_unassigned s h⟩, ?reset,
    fun w hop => decode_of_opcode (.rd 0) hop, fun w hop => decode_of_nonzero_field (.rd 0) 4 8 hop rfl rfl⟩
  case reset =>
    exact ⟨fun _ => regRead_clock_at_reset, rfl, rfl, rfl, rfl, rfl, BitVec.shiftLeft_zero _, rfl,
      regRead_tpm _, fun _ h _ => regRead_unassigned _ h⟩
  all_goals rintro rfl
  case sec => exact placeAt_zero_toNat s.clock.sec (by decide)
  case min => exact placeAt_zero_toNat s.clock.min (by decide)
  case hour => exact placeAt_zero_toNat s.clock.hour (by decide)
  case clock => exact clockWord_toNat s
  case ctrl => exact ctrlWord_toNat s
  case eint => exact eintWord_toNat s
  case esense => exact esenseWord_toNat s
  case scanout => exact scanoutWord_toNat s
  case vis => exact visWord_toNat s
  case tinit => exact placeAt_zero_toNat s.tcfg.tinit (by decide)
  case tcmp => exact placeAt_zero_toNat s.tcfg.tcmp (by decide)
  case tpm => exact regRead_tpm_toNat s

end Sys2Proof.Machine

/-! PROOFS. Exceptions and interrupts (60_exceptions.md). First which command can write the latches, and how; then
simultaneity within one step (rule R214). -/
namespace Sys2Proof.Machine

/-! ### How a command writes the latches (rules R90, R132, R135, R150) -/

/-- A `TICK` writes the tick's latch and flag only (rule R90). -/
theorem effect_tick_pend (s : State) : (effect .tick s).pend = s.pend := by
  rw [effect, latchTick_eq]
  split <;> rfl

/-- Servicing a line clears its latch; servicing the tick leaves the lines' latches (rule R150). -/
theorem service_pend (src : Source) (s : State) :
    (service src s).pend = s.pend ∨ ∃ k, (service src s).pend = s.pend.set k false := by
  rw [service_eq]
  rcases src with (_ | _ | _) | _
  · exact .inr ⟨.l0, rfl⟩
  · exact .inr ⟨.l1, rfl⟩
  · exact .inr ⟨.l2, rfl⟩
  · exact .inl rfl

/-- The inversion of a command on the line latches: it leaves them, clears one, or is a sample that sets its line's. -/
theorem effect_pend_cases (i : Instr) (s : State) :
    (effect i s).pend = s.pend ∨ (∃ k, (effect i s).pend = s.pend.set k false) ∨
      ∃ ln lv k, i = .line ln lv ∧ lineOf ln = some k ∧ (effect i s).pend = s.pend.set k true := by
  cases i with
  | tick => exact .inl (effect_tick_pend s)
  | line ln lv =>
    cases hl : lineOf ln with
    | none => exact .inl (by rw [effect, hl, Option.elim])
    | some k =>
      rw [effect_line_of_lineOf hl, sampleLine_eq]
      dsimp only
      split
      · exact .inr (.inr ⟨ln, lv, k, rfl, hl, rfl⟩)
      · exact .inl rfl
  | ecfg ln kd => exact .inl (by cases hl : lineOf ln <;> simp [effect, hl])
  | een ln => exact .inl (by cases hl : lineOf ln <;> simp [effect, hl])
  | edis ln =>
    cases hl : lineOf ln with
    | none => exact .inl (by rw [effect, hl, Option.elim])
    | some k => exact .inr (.inl ⟨k, by rw [effect_edis_of_lineOf hl]; rfl⟩)
  | irqoff => exact .inl rfl
  | irqon => exact .inl rfl
  | disp =>
    obtain hsame | ⟨src, -, -, hserv⟩ := effect_disp_cases s
    · exact .inl (by rw [hsame])
    · rw [hserv]
      exact (service_pend src s).imp_right .inl
  | scan => exact .inl rfl
  | rd ad => exact .inl rfl

/-- A command that raises a line's latch is a sample of that line, and writes no other line's (rule R132). -/
theorem sample_of_latch_raised {i : Instr} {s : State} {j : LineId} (hclear : s.pend.get j = false)
    (hset : (effect i s).pend.get j = true) :
    ∃ ln lv, i = .line ln lv ∧ lineOf ln = some j ∧ (effect i s).pend = s.pend.set j true := by
  obtain hsame | ⟨k, hcleared⟩ | ⟨ln, lv, k, hi, hl, hwritten⟩ := effect_pend_cases i s
  · rw [hsame, hclear] at hset
    cases hset
  · rw [hcleared, PerLine.get_set, hclear, ite_self] at hset
    cases hset
  · obtain rfl : j = k := by
      by_contra hne
      rw [hwritten, PerLine.get_set_ne _ _ hne, hclear] at hset
      cases hset
    exact ⟨ln, lv, hi, hl, hwritten⟩

/-! ### The obligation -/

/-- Settles O37: a tick latched by the command makes it `TICK`, a line latch raised makes it a sample of the line, and a
`DISP` services one source or none. -/
theorem atMostOneLatchRises : Obligations.AtMostOneLatchRises := by
  intro i s t ht
  obtain rfl := exec_next_iff.mp ht
  refine ⟨fun hclear hset => ?tick, fun j hclear hset => ?line, ?disp⟩
  case tick =>
    obtain ⟨rfl, -⟩ | ⟨hlatched, -⟩ := tickPend_after_effect hset
    · exact ⟨rfl, effect_tick_pend s⟩
    · rw [hclear] at hlatched
      cases hlatched
  case line =>
    obtain ⟨ln, lv, rfl, hl, hpend⟩ := sample_of_latch_raised hclear hset
    obtain ⟨-, -, htick⟩ := effect_flags (.line ln lv) s
    refine ⟨⟨ln, lv, rfl, hl⟩, htick nofun nofun, fun k hk => ?_⟩
    rw [hpend, PerLine.get_set_ne _ _ hk]
  case disp =>
    rintro rfl
    exact (effect_disp_cases s).imp_right fun ⟨src, _, _, hserv⟩ => ⟨src, hserv⟩

end Sys2Proof.Machine

/-! PROOFS. Reset and hazards (70_reset_and_hazards.md). First what a line's request and a clear tick latch say about the
source selected; then the samples of a disarmed line, the last level and the trigger kind of a line, and the commands that
leave a held line alone. -/
namespace Sys2Proof.Machine

/-! ### The selected source (rules R151, R213) -/

/-- With the tick latch clear, the tick is not selected. -/
theorem selectSource_ne_tick {s : State} (hp : s.tickPend = false) : selectSource s ≠ some .tick := by
  intro hsel
  obtain ⟨-, -, -, hlatched⟩ := selectSource_eq_some_tick.mp hsel
  exact absurd hlatched (Bool.eq_false_iff.mp hp)

/-- Every line goes before the tick: with a line requesting, a line is selected. -/
theorem exists_line_selected {s : State} {i : LineId} (h : requestLine s i = true) :
    ∃ j, selectSource s = some (.line j) := by
  unfold selectSource
  split
  next => exact ⟨.l0, rfl⟩
  next h0 =>
    split
    next => exact ⟨.l1, rfl⟩
    next h1 =>
      obtain rfl : i = .l2 := by
        cases i with
        | l0 => exact absurd h h0
        | l1 => exact absurd h h1
        | l2 => rfl
      exact ⟨.l2, if_pos h⟩

/-! ### The samples of a disarmed line (rules R132, R251) -/

section
variable {ln : Nat} {i : LineId} {s : State}

/-- A sample of a disarmed line records its level and nothing else. -/
theorem sampleLine_of_disarmed (hen : s.en.get i = false) (lv : LineLevel) : sampleLine i lv s = s.setLast i lv := by
  simp only [sampleLine, hen, Bool.false_and, Bool.false_eq_true, if_false]

/-- The samples of a disarmed line record the last of their levels and nothing else. -/
theorem effects_samples_of_disarmed (hl : lineOf ln = some i) (hen : s.en.get i = false) (levels : List LineLevel) :
    effects (levels.map (.line ln)) s = s.setLast i (levels.getLastD (s.last.get i)) := by
  induction levels generalizing s with
  | nil => simp only [List.map_nil, effects_nil, List.getLastD_nil, State.setLast, PerLine.set_get]
  | cons lv levels ih =>
    rw [List.map_cons, effects_cons, effect_line_of_lineOf hl, sampleLine_of_disarmed hen,
      ih (s := s.setLast i lv) hen]
    simp only [State.setLast, PerLine.get_set_same, PerLine.set_set, List.getLastD_cons]

/-- An edge line with its latch clear does not request. -/
theorem requestLine_of_clear (hk : kindOf s i ≠ .lowLevel) (hpend : s.pend.get i = false) :
    requestLine s i = false := by
  simp only [requestLine, hpend, hk, decide_false, Bool.false_and, Bool.or_false, Bool.and_false]

end

/-! ### What a command writes of a line's last level and trigger kind (rules R132, R133) -/

@[simp] theorem service_last (src : Source) (s : State) : (service src s).last = s.last := by rw [service_frame]
@[simp] theorem setSense_last (i : LineId) (kd : TriggerKind) (s : State) : (setSense i kd s).last = s.last := by
  rw [setSense_frame]

/-- A kind write leaves the kinds of the other lines. -/
theorem kindOf_setSense_ne {i j : LineId} (hj : j ≠ i) (kd : TriggerKind) (s : State) :
    kindOf (setSense i kd s) j = kindOf s j := by
  cases i with
  | l0 => cases j with
    | l0 => exact absurd rfl hj
    | l1 | l2 => rfl
  | l1 => cases j with
    | l1 => exact absurd rfl hj
    | l0 | l2 => rfl
  | l2 => cases j with
    | l2 => exact absurd rfl hj
    | l0 | l1 => cases kd <;> rfl

/-- A command that does not sample line `j` leaves its last level. -/
theorem effect_last_get {i : Instr} {j : LineId} (hline : ∀ ln lv, lineOf ln = some j → i ≠ .line ln lv) (s : State) :
    (effect i s).last.get j = s.last.get j := by
  cases i with
  | tick => simp only [effect]; split <;> simp [latchTick_eq]
  | line ln lv =>
    cases hl : lineOf ln with
    | none => simp only [effect, hl, Option.elim]
    | some k =>
      have hjk : j ≠ k := fun hjk => hline ln lv (by rw [hl, hjk]) rfl
      rw [effect_line_of_lineOf hl, sampleLine_eq, PerLine.get_set_ne _ _ hjk]
  | ecfg ln kd => cases hl : lineOf ln <;> simp [effect, hl]
  | een ln => cases hl : lineOf ln <;> simp [effect, hl]
  | edis ln => cases hl : lineOf ln <;> simp [effect, hl]
  | irqoff => rfl
  | irqon => rfl
  | disp =>
    obtain hsame | ⟨src, -, -, hserved⟩ := effect_disp_cases s
    · rw [hsame]
    · rw [hserved, service_last]
  | scan => rfl
  | rd ad => rfl

/-- A command that does not configure line `j` leaves its trigger kind. -/
theorem kindOf_effect {i : Instr} {j : LineId} (hecfg : ∀ ln kd, lineOf ln = some j → i ≠ .ecfg ln kd) (s : State) :
    kindOf (effect i s) j = kindOf s j := by
  cases i with
  | tick =>
    rw [effect, latchTick_eq]
    split
    · exact kindOf_congr rfl rfl rfl j
    · rfl
  | line ln lv => cases hl : lineOf ln <;> simp [effect, hl]
  | ecfg ln kd =>
    cases hl : lineOf ln with
    | none => simp only [effect, hl, Option.elim]
    | some k =>
      have hjk : j ≠ k := fun hjk => hecfg ln kd (by rw [hl, hjk]) rfl
      simp only [effect, hl, Option.elim, kindOf_setSense_ne hjk]
  | een ln =>
    cases hl : lineOf ln with
    | none => simp only [effect, hl, Option.elim]
    | some k => exact (congrArg (kindOf · j) (effect_een_of_lineOf hl s)).trans (kindOf_congr rfl rfl rfl j)
  | edis ln =>
    cases hl : lineOf ln with
    | none => simp only [effect, hl, Option.elim]
    | some k => exact (congrArg (kindOf · j) (effect_edis_of_lineOf hl s)).trans (kindOf_congr rfl rfl rfl j)
  | irqoff | irqon | scan | rd => exact kindOf_congr rfl rfl rfl j
  | disp =>
    obtain hsame | ⟨src, -, -, hserved⟩ := effect_disp_cases s
    · rw [hsame]
    · rw [hserved, kindOf_service]

/-! ### An armed LowLevel line held Low (rule R250) -/

/-- Line `i` is an armed LowLevel line whose last level is Low. -/
structure HeldLow (i : LineId) (s : State) : Prop where
  armed : s.en.get i = true
  low_level : kindOf s i = .lowLevel
  low : s.last.get i = .low

/-- The command does not sample, configure or disarm line `i`. -/
def LeavesLine (i : LineId) (c : Instr) : Prop :=
  ∀ ln lv kd, lineOf ln = some i → c ≠ .line ln lv ∧ c ≠ .ecfg ln kd ∧ c ≠ .edis ln

/-- Servicing a line keeps the clock or zeroes it (rules R93, R110, R111). -/
theorem service_line_clock (i : LineId) (s : State) :
    (service (.line i) s).clock = s.clock ∨ (service (.line i) s).clock = { sec := 0, min := 0, hour := 0 } := by
  cases i with
  | l0 => exact .inr rfl
  | l1 | l2 => exact .inl rfl

section
variable {i : LineId} {s : State} (h : HeldLow i s)
include h

theorem HeldLow.requests : requestLine s i = true := requestLine_of_low h.armed h.low_level h.low

/-- A held line takes every `DISP` from the tick. -/
theorem HeldLow.line_selected : ∃ j, selectSource s = some (.line j) := exists_line_selected h.requests

theorem HeldLow.kept {c : Instr} (hc : LeavesLine i c) : HeldLow i (effect c s) := by
  have hline : ∀ ln lv, lineOf ln = some i → c ≠ .line ln lv := fun ln lv hl => (hc ln lv .lowLevel hl).1
  have hecfg : ∀ ln kd, lineOf ln = some i → c ≠ .ecfg ln kd := fun ln kd hl => (hc ln .low kd hl).2.1
  have hedis : ∀ ln, lineOf ln = some i → c ≠ .edis ln := fun ln hl => (hc ln .low .lowLevel hl).2.2
  exact ⟨effect_keeps_armed hedis h.armed, (kindOf_effect hecfg s).trans h.low_level,
    (effect_last_get hline s).trans h.low⟩

/-- While a line is held Low, no command advances the clock. -/
theorem HeldLow.clock (c : Instr) :
    (effect c s).clock = s.clock ∨ (effect c s).clock = { sec := 0, min := 0, hour := 0 } := by
  by_cases hdisp : c = .disp
  · subst hdisp
    obtain ⟨j, hline⟩ := h.line_selected
    obtain hsame | ⟨src, -, hsel, hserved⟩ := effect_disp_cases s
    · exact .inl (by rw [hsame])
    · obtain rfl : src = .line j := Option.some.inj (hsel.symm.trans hline)
      rw [hserved]
      exact service_line_clock j s
  · exact .inl (effect_clock s hdisp).1

/-- Over commands that leave the held line alone, it stays held and the clock never advances. -/
theorem HeldLow.effects {is : List Instr} (his : ∀ c ∈ is, LeavesLine i c) :
    HeldLow i (effects is s) ∧
      ((effects is s).clock = s.clock ∨ (effects is s).clock = { sec := 0, min := 0, hour := 0 }) := by
  refine effects_induction
    (P := fun u => HeldLow i u ∧ (u.clock = s.clock ∨ u.clock = { sec := 0, min := 0, hour := 0 }))
    is (fun c hc u hu => ?_) s ⟨h, .inl rfl⟩
  obtain ⟨hheld, hclock⟩ := hu
  refine ⟨hheld.kept (his c hc), ?_⟩
  obtain hsame | hzero := hheld.clock c
  · rwa [hsame]
  · exact .inr hzero

end

/-! ### The obligations -/

/-- Settles O41: a held line goes on requesting, and every line goes before the tick. -/
theorem heldLowLineStarvesTheTick : Obligations.HeldLowLineStarvesTheTick := by
  intro s t held is harmed hkind hlow his ht
  obtain rfl := execAll_next_iff.mp ht
  have hstart : HeldLow held s := ⟨harmed, hkind, hlow⟩
  obtain ⟨hheld, hclock⟩ := hstart.effects his
  obtain ⟨j, hsel⟩ := hheld.line_selected
  exact ⟨hclock, hheld.requests, by rw [hsel]; nofun, fun _ => ⟨j, hsel⟩⟩

/-- Settles O25: a `TICK` while Paused changes nothing, and neither does a `DISP` with nothing requesting. -/
theorem pausedTicksAreIgnored : Obligations.PausedTicksAreIgnored := by
  refine ⟨fun s hg => ?tick, fun s => ⟨rfl, rfl⟩, fun s is hg hp hline his => ⟨s, ?run, rfl, hp, rfl⟩⟩
  case tick => rw [exec_eq_effect, effect_tick_of_paused hg]
  case run =>
    refine execAll_next_iff.mpr (effects_induction (P := (s = ·)) is (fun i hi u hu => ?_) s rfl)
    subst hu
    obtain rfl | rfl := his i hi
    · exact (effect_tick_of_paused hg).symm
    · exact (effect_disp_of_none (selectSource_eq_none hline hp)).symm

/-- Settles O32: while disarmed the line's samples write its last level only, and `EEN` finds the latch that `EDIS`
cleared. -/
theorem edgesWhileDisarmedAreLost : Obligations.EdgesWhileDisarmedAreLost := by
  intro s ln i levels hl
  have hrun : effects ([.edis ln] ++ levels.map (.line ln) ++ [.een ln]) s =
      (((s.setEn i false).setPend i false).setLast i (levels.getLastD (s.last.get i))).setEn i true := by
    have hoff : ((s.setEn i false).setPend i false).en.get i = false := PerLine.get_set_same ..
    simp only [effects_append, effects_cons, effects_nil, effect_edis_of_lineOf hl,
      effects_samples_of_disarmed hl hoff, effect_een_of_lineOf hl, State.setPend_last, State.setEn_last]
  have hclear := PerLine.get_set_same s.pend i false
  refine ⟨_, execAll_next_iff.mpr hrun.symm, hclear, PerLine.get_set_same .., PerLine.get_set_same .., fun hk => ?_⟩
  exact requestLine_of_clear ((kindOf_congr rfl rfl rfl i).trans_ne hk) hclear

/-- Settles O39: from every state, one with the tick serviced among them, the Reset handler zeroes the clock and clears the
tick latch. -/
theorem resetBeatsATickInFlight : Obligations.ResetBeatsATickInFlight := by
  have hreset : ∀ s : State, (service (.line .l0) s).clock = { sec := 0, min := 0, hour := 0 } ∧
      (service (.line .l0) s).tickPend = false ∧ selectSource (service (.line .l0) s) ≠ some .tick :=
    fun s => ⟨rfl, rfl, selectSource_ne_tick rfl⟩
  exact fun s => ⟨hreset s, hreset (service .tick s)⟩

end Sys2Proof.Machine

/-! PROOFS. The remaining statements: the encoding's round trips, the steps of the port, the registers that a command
leaves alone, and the races that the priority decides. First the facts each of them rests on; then the obligations. -/
namespace Sys2Proof

/-! ### A decoded command is well formed (rules R71, R72) -/

/-- An operand read from a word fits its field, which is as wide as the field it was read from. -/
theorem Instr.wf_readFrom (w : Word) (i : Instr) : (i.readFrom w).wf = true := by
  have hln : lineNumberFits (lnField w) = true := decide_eq_true (w.extractLsb' 0 2).isLt
  cases i with
  | line | ecfg | een | edis => exact hln
  | rd ad => exact decide_eq_true (w.extractLsb' 0 4).isLt
  | tick | irqoff | irqon | disp | scan => rfl

theorem wf_of_decode {w : Word} {i : Instr} (h : decode w = .ok i) : i.wf = true := by
  obtain ⟨-, hread⟩ := decode_eq_ok_iff.mp h
  rw [← hread]
  exact i.wf_readFrom w

/-- All sixteen bits of a word are placed as they are. -/
@[simp] theorem tableWord_toNat (w : Word) : tableWord 16 w.toNat = w := by
  rw [tableWord, Nat.mod_eq_of_lt w.isLt, BitVec.ofNat_toNat, BitVec.setWidth_eq]

end Sys2Proof

namespace Sys2Proof.Machine

/-! ### What a word does to a run, and a step to a port (rules R50, R78) -/

section
variable {s : State} {w : Word}

/-- With no word presented a step is idle. -/
theorem step_of_no_word (h : s.port = []) : step s = .next s := by
  simp only [step, takeWord, h]

/-- A step runs the oldest word at the state without it. -/
theorem step_eq_runWord {rest : List Word} (h : s.port = w :: rest) : step s = runWord w { s with port := rest } := by
  simp only [step, takeWord, h]

/-- A word presented to a marked run has no meaning. -/
theorem runWord_of_marked (hr : s.refused = true) : runWord w s = .refused .runMarkedRefused := by
  simp only [runWord, hr, if_true]

/-- A word that does not decode marks the run, whatever the clock. -/
theorem runWord_of_error {e : DecodeError} (hr : s.refused = false) (hd : decode w = .error e) :
    runWord w s = .next (refuse s) := by
  simp only [runWord, hr, hd, Bool.false_eq_true, if_false, ite_self]

/-- Every word presented outside the clock invariant marks the run (rule R25). -/
theorem runWord_of_illegal_clock (hr : s.refused = false) (hv : s.clock.valid = false) :
    runWord w s = .next (refuse s) := by
  simp only [runWord, hr, hv, Bool.false_eq_true, if_false]

/-- Otherwise a word that decodes is run as its command. -/
theorem runWord_eq_exec {i : Instr} (hr : s.refused = false) (hv : s.clock.valid = true) (hd : decode w = .ok i) :
    runWord w s = exec i s := by
  simp only [runWord, hr, hv, hd, Bool.false_eq_true, if_false, if_true]

/-- A word presented to an unmarked run has a next state: its command's, or the mark. -/
theorem exists_runWord_next (hr : s.refused = false) : ∃ t, runWord w s = .next t := by
  cases hv : s.clock.valid with
  | false => exact ⟨_, runWord_of_illegal_clock hr hv⟩
  | true =>
    cases hd : decode w with
    | ok i => exact ⟨_, (runWord_eq_exec hr hv hd).trans (exec_eq_effect i s)⟩
    | error e => exact ⟨_, runWord_of_error hr hd⟩

end

/-! ### The clock stays legal (rules R25, R91) -/

section
variable {s : State} (h : s.clock.valid = true)
include h

/-- A handler keeps the clock, zeroes it or advances it. -/
theorem service_keeps_clock_valid (src : Source) : (service src s).clock.valid = true := by
  rw [service_eq]
  rcases src with (_ | _ | _) | _
  · rfl
  · exact h
  · exact h
  · exact advanceValue_valid h

theorem effect_keeps_clock_valid (i : Instr) : (effect i s).clock.valid = true := by
  by_cases hi : i = .disp
  · subst hi
    obtain hsame | ⟨src, -, -, hserved⟩ := effect_disp_cases s
    · rwa [hsame]
    · rw [hserved]
      exact service_keeps_clock_valid h src
  · obtain ⟨hclock, -, -⟩ := effect_clock s hi
    rwa [hclock]

theorem step_keeps_clock_valid {t : State} (hs : step s = .next t) : t.clock.valid = true := by
  obtain ⟨-, rfl⟩ | ⟨w, rest, i, -, -, -, -, -, rfl⟩ | ⟨w, rest, -, -, -, rfl⟩ := step_cases hs
  · exact h
  · exact effect_keeps_clock_valid (s := { s with port := rest }) h i
  · exact h

end

/-! ### What servicing a source leaves alone (rule R215) -/

@[simp] theorem service_pos (src : Source) (s : State) : (service src s).pos = s.pos := by rw [service_frame]
@[simp] theorem service_sel (src : Source) (s : State) : (service src s).sel = s.sel := by rw [service_frame]
@[simp] theorem service_bcd (src : Source) (s : State) : (service src s).bcd = s.bcd := by rw [service_frame]
@[simp] theorem service_vis (src : Source) (s : State) : (service src s).vis = s.vis := by rw [service_frame]
@[simp] theorem service_rdata (src : Source) (s : State) : (service src s).rdata = s.rdata := by rw [service_frame]
@[simp] theorem service_refused (src : Source) (s : State) : (service src s).refused = s.refused := by
  rw [service_frame]
@[simp] theorem service_port (src : Source) (s : State) : (service src s).port = s.port := by rw [service_frame]

/-! ### What a command leaves alone: `RDATA`, `REFUSED`, the port, the enables, the latches -/

@[simp] theorem setSense_rdata (i : LineId) (kd : TriggerKind) (s : State) : (setSense i kd s).rdata = s.rdata := by
  rw [setSense_frame]
@[simp] theorem setSense_refused (i : LineId) (kd : TriggerKind) (s : State) :
    (setSense i kd s).refused = s.refused := by
  rw [setSense_frame]
@[simp] theorem setSense_port (i : LineId) (kd : TriggerKind) (s : State) : (setSense i kd s).port = s.port := by
  rw [setSense_frame]

/-- No command writes `REFUSED` or the port, and only `RD` writes `RDATA` (rules R40, R41, R190). -/
theorem effect_frame (i : Instr) (s : State) :
    (effect i s).refused = s.refused ∧ (effect i s).port = s.port ∧
    ((∀ ad, i ≠ .rd ad) → (effect i s).rdata = s.rdata) := by
  cases i with
  | tick => simp only [effect]; split <;> simp [latchTick_eq]
  | line ln lv => cases hl : lineOf ln <;> simp [effect, sampleLine_eq, hl]
  | ecfg ln kd => cases hl : lineOf ln <;> simp [effect, hl]
  | een ln => cases hl : lineOf ln <;> simp [effect, hl]
  | edis ln => cases hl : lineOf ln <;> simp [effect, hl]
  | irqoff | irqon | scan => exact ⟨rfl, rfl, fun _ => rfl⟩
  | disp => simp only [effect]; split <;> cases selectSource s <;> simp
  | rd ad => exact ⟨rfl, rfl, fun hno => absurd rfl (hno ad)⟩

/-- Only `EEN` and `EDIS` write the enables (rules R32, R134, R135). -/
theorem effect_en {i : Instr} (s : State) (heen : ∀ ln, i ≠ .een ln) (hedis : ∀ ln, i ≠ .edis ln) :
    (effect i s).en = s.en := by
  cases i with
  | tick => simp only [effect]; split <;> simp [latchTick_eq]
  | line ln lv => cases hl : lineOf ln <;> simp [effect, hl]
  | ecfg ln kd => cases hl : lineOf ln <;> simp [effect, hl]
  | een ln => exact absurd rfl (heen ln)
  | edis ln => exact absurd rfl (hedis ln)
  | irqoff | irqon | scan | rd => rfl
  | disp => simp only [effect]; split <;> cases selectSource s <;> simp

/-- Only `LINE`, `EDIS` and `DISP` write the line latches (rules R34, R132, R135, R150). -/
theorem effect_pend {i : Instr} (s : State) (hline : ∀ ln lv, i ≠ .line ln lv) (hedis : ∀ ln, i ≠ .edis ln)
    (hdisp : i ≠ .disp) : (effect i s).pend = s.pend := by
  cases i with
  | tick => exact effect_tick_pend s
  | line ln lv => exact absurd rfl (hline ln lv)
  | ecfg ln kd => cases hl : lineOf ln <;> simp [effect, hl]
  | een ln => cases hl : lineOf ln <;> simp [effect, hl]
  | edis ln => exact absurd rfl (hedis ln)
  | irqoff | irqon | scan | rd => rfl
  | disp => exact absurd rfl hdisp

/-- Only `LINE` writes the last levels (rule R35). -/
theorem effect_last {i : Instr} (s : State) (hline : ∀ ln lv, i ≠ .line ln lv) : (effect i s).last = s.last :=
  PerLine.ext_get fun _ => effect_last_get (fun ln lv _ => hline ln lv) s

/-- `TICK` can set the overrun flag and never clears it (rule R30). -/
theorem effect_tick_tickOvr {s : State} (h : s.tickOvr = true) : (effect .tick s).tickOvr = true := by
  rw [effect, latchTick_eq]
  split
  · exact Bool.or_eq_true_iff.mpr (.inl h)
  · exact h

/-! ### The source behind a change that a `DISP` makes (rules R92, R93, R110, R111) -/

/-- Whatever a `DISP` changes, the service of the selected source changes. -/
theorem selected_of_disp_ne {α : Type} (f : State → α) {s : State} (h : f (effect .disp s) ≠ f s) :
    ∃ src, selectSource s = some src ∧ f (service src s) ≠ f s := by
  obtain hsame | ⟨src, -, hsel, hserved⟩ := effect_disp_cases s
  · exact absurd (congrArg f hsame) h
  · exact ⟨src, hsel, hserved ▸ h⟩

/-- The tick's handler and the Reset line's are those that write the clock. -/
theorem service_clock_ne {src : Source} {s : State} (h : (service src s).clock ≠ s.clock) :
    src = .tick ∨ src = .line .l0 := by
  rcases src with (_ | _ | _) | _
  · exact .inr rfl
  · exact absurd rfl h
  · exact absurd rfl h
  · exact .inl rfl

/-- The Resume line's handler is the one that writes the timer configuration. -/
theorem service_tcfg_ne {src : Source} {s : State} (h : (service src s).tcfg ≠ s.tcfg) : src = .line .l2 := by
  rcases src with (_ | _ | _) | _
  · exact absurd rfl h
  · exact absurd rfl h
  · rfl
  · exact absurd rfl h

/-! ### The request of a line latched, and of a line serviced (rules R131, R150) -/

section
variable {i : LineId} {s : State}

/-- An armed line with its latch set requests. -/
theorem requestLine_of_latched (hen : s.en.get i = true) (hpend : s.pend.get i = true) : requestLine s i = true := by
  simp only [requestLine, hen, hpend, Bool.true_or, Bool.and_self]

/-- Servicing a line clears its latch. -/
theorem service_line_pend_get (i : LineId) (s : State) : (service (.line i) s).pend.get i = false := by
  cases i <;> rfl

/-- A line that is not held Low by its level stops requesting when it is serviced. -/
theorem requestLine_service_line_self (h : ¬(kindOf s i = .lowLevel ∧ s.last.get i = .low)) :
    requestLine (service (.line i) s) i = false := by
  simp only [requestLine, service_line_pend_get, kindOf_service, service_last, Bool.false_or,
    ← Bool.decide_and, decide_eq_false h, Bool.and_false]

end

/-! ### The obligations -/

/-- Settles O11: `decode_encode`. -/
theorem decodeOfEncode : Obligations.DecodeOfEncode := fun _ hwf => decode_encode hwf

/-- Settles O12: the decoder reads operands from fields of their own width, and every bit outside them is fixed. -/
theorem encodeOfDecode : Obligations.EncodeOfDecode := fun _ _ hd => ⟨wf_of_decode hd, encode_of_decode hd⟩

/-- Settles O54: every command and every refusal keeps the invariants. -/
theorem stepKeepsTheInvariants : Obligations.StepKeepsTheInvariants := fun _ _ hinv hs => step_keeps_blockInv hinv hs

/-- Settles O6: a command keeps the clock legal; outside the invariant no word is run. -/
theorem clockInvariantIsKeptOrRefused : Obligations.ClockInvariantIsKeptOrRefused := by
  refine ⟨fun s t hv hs => t.clock.valid_iff.mp (step_keeps_clock_valid hv hs), fun s w rest hport hr hbad => ?_⟩
  rw [← s.clock.valid_iff, Bool.not_eq_true] at hbad
  exact (step_eq_runWord hport).trans (runWord_of_illegal_clock hr hbad)

/-- Settles O7: every command answers its effect, and every word presented to an unmarked run a next state. -/
theorem nothingTraps : Obligations.NothingTraps := by
  refine ⟨fun i s => ?command, fun s hr => ?step⟩
  case command =>
    obtain ⟨hrefused, hport, -⟩ := effect_frame i s
    exact ⟨effect i s, exec_eq_effect i s, hrefused, hport⟩
  case step =>
    cases hport : s.port with
    | nil => exact ⟨s, step_of_no_word hport⟩
    | cons w rest =>
      rw [step_eq_runWord hport]
      exact exists_runWord_next hr

/-- Settles O42: each clause is the contrapositive of what the other commands leave alone; for a `DISP`, the source whose
handler writes the register. -/
theorem onlyTheirWritersChangeRegisters : Obligations.OnlyTheirWritersChangeRegisters := by
  intro i s t ht
  have hexec := ht
  obtain rfl := exec_next_iff.mp ht
  obtain ⟨hie, hovr, htick⟩ := effect_flags i s
  obtain ⟨hrefused, -, hrdata⟩ := effect_frame i s
  refine ⟨fun h => ?clock, fun h => ?gate, fun h => ?tcfg, fun h => ?tickPend, fun h => ?tickOvr, fun h => ?ie,
    fun h => ?en, fun ⟨j, h⟩ => ?kind, fun h => ?pend, fun h => ?last, fun h => ?scanner, fun h => ?rdata, hrefused⟩
  case clock =>
    obtain rfl := eq_disp_of_clock_ne hexec h
    obtain ⟨src, hsel, hsrc⟩ := selected_of_disp_ne State.clock h
    obtain rfl | rfl := service_clock_ne hsrc
    · exact ⟨rfl, .inl hsel⟩
    · exact ⟨rfl, .inr hsel⟩
  case gate =>
    obtain rfl := eq_disp_of_gate_or_tcfg_ne hexec (.inl h)
    obtain ⟨src, hsel, hsrc⟩ := selected_of_disp_ne State.gate h
    obtain ⟨-, -, rfl⟩ | ⟨-, -, rfl⟩ := service_gate_ne hsrc
    · exact ⟨rfl, .inl hsel⟩
    · exact ⟨rfl, .inr hsel⟩
  case tcfg =>
    obtain rfl := eq_disp_of_gate_or_tcfg_ne hexec (.inr h)
    obtain ⟨src, hsel, hsrc⟩ := selected_of_disp_ne State.tcfg h
    exact ⟨rfl, service_tcfg_ne hsrc ▸ hsel⟩
  case tickPend =>
    by_contra! hno
    obtain ⟨hnotick, hnodisp⟩ := hno
    exact h (htick hnotick hnodisp)
  case tickOvr =>
    obtain rfl : i = .tick := by
      by_contra hno
      exact h (hovr hno)
    refine ⟨rfl, ?_⟩
    cases hs : s.tickOvr with
    | false => exact Bool.eq_true_of_not_eq_false (hs ▸ h)
    | true => exact effect_tick_tickOvr hs
  case ie =>
    by_contra! hno
    obtain ⟨hoff, hon⟩ := hno
    exact h (hie hoff hon)
  case en =>
    by_contra! hno
    exact h (effect_en s (fun ln => (hno ln).1) (fun ln => (hno ln).2))
  case kind =>
    by_contra! hno
    exact h (kindOf_effect (fun ln kd _ => hno ln kd) s)
  case pend =>
    by_contra! hno
    obtain ⟨hdisp, hlines⟩ := hno
    exact h (effect_pend s (fun ln => (hlines ln).2) (fun ln => (hlines ln).1) hdisp)
  case last =>
    by_contra! hno
    exact h (effect_last s hno)
  case scanner =>
    by_contra hno
    obtain ⟨hpos, hsel, hbcd, hvis⟩ := effect_scanner s hno
    simp only [hpos, hsel, hbcd, hvis, ne_eq, not_true_eq_false, or_self] at h
  case rdata =>
    by_contra! hno
    exact h (hrdata hno)

/-- Settles O43: the interrupt unit's command is `DISP`, and every other keeps the three registers. -/
theorem onlyTheInterruptUnitChangesClockAndGate : Obligations.OnlyTheInterruptUnitChangesClockAndGate := by
  intro s t is hagents ht
  obtain rfl := execAll_next_iff.mp ht
  refine effects_induction (P := fun u => u.clock = s.clock ∧ u.gate = s.gate ∧ u.tcfg = s.tcfg) is
    (fun i hi u hu => ?_) s ⟨rfl, rfl, rfl⟩
  have hdisp : i ≠ .disp := fun hc => hagents i hi (congrArg Instr.agent hc)
  obtain ⟨hclock, hgate, htcfg⟩ := effect_clock u hdisp
  rwa [hclock, hgate, htcfg]

/-- Settles O2. -/
theorem stepRunsTheDecodedCommand : Obligations.StepRunsTheDecodedCommand := by
  intro s w rest i hport hr hv hd
  exact (step_eq_runWord hport).trans (runWord_eq_exec hr hv hd)

/-- Settles O3. -/
theorem noWordNoChange : Obligations.NoWordNoChange := fun _ => step_of_no_word

/-- Settles O4: the placed word is the command's word, and taking it gives back the state it was placed in. -/
theorem placedWordRunsNext : Obligations.PlacedWordRunsNext := by
  intro s i hwf hr hv
  rw [State.withFetchWord, tableWord_toNat]
  exact stepRunsTheDecodedCommand (presentFirst (encode i) s) (encode i) s.port i rfl hr hv (decode_encode hwf)

/-- Settles O5: a word that does not decode marks the run, and a marked run gives no word a meaning. -/
theorem refusedWordMarksTheRun : Obligations.RefusedWordMarksTheRun := by
  intro s w rest hport
  rw [step_eq_runWord hport]
  exact ⟨fun hr ⟨_, hd⟩ => runWord_of_error hr hd, fun hr => runWord_of_marked hr⟩

/-- Settles O13: the decoder evaluated at each of the twelve words. -/
theorem wordsOfTheSpecDecode : Obligations.WordsOfTheSpecDecode := by
  unfold Obligations.WordsOfTheSpecDecode
  decide

/-- Settles O15: the fields hold finitely many operands, and the reader is evaluated at the line of each. -/
theorem assembledLineIsTheCommand : Obligations.AssembledLineIsTheCommand := by
  intro i hwf
  cases i with
  | line ln lv =>
    have hln : ln < 4 := of_decide_eq_true hwf
    cases lv <;> interval_cases ln <;> rfl
  | ecfg ln kd =>
    have hln : ln < 4 := of_decide_eq_true hwf
    cases kd <;> interval_cases ln <;> rfl
  | een ln | edis ln =>
    have hln : ln < 4 := of_decide_eq_true hwf
    interval_cases ln <;> rfl
  | rd ad =>
    have had : ad < 16 := of_decide_eq_true hwf
    interval_cases ad <;> rfl
  | tick | irqoff | irqon | disp | scan => rfl

/-- Settles O38: the service's frame, and the `SCAN` after it, which reads `POS` and `VIS` as they were. -/
theorem handlersReturnToThePreemptedAgent : Obligations.HandlersReturnToThePreemptedAgent := by
  intro src s
  refine ⟨service_pos src s, service_sel src s, service_bcd src s, service_vis src s, service_rdata src s,
    service_ie src s, service_en src s, service_last src s, kindOf_service src s, service_tickOvr src s,
    service_port src s, ?scan⟩
  rw [exec_eq_effect, effect, visitPosition, service_pos, service_vis, onehot6]

/-- Settles O40: the first `DISP` services Pause, which clears its latch and the tick and leaves the Resume request; the
second finds nothing, or Resume. -/
theorem priorityDecidesTwoRaces : Obligations.PriorityDecidesTwoRaces := by
  refine ⟨fun s hie hreset hen hpend hlevel hresume _ => ?tick, fun s hie hreset hen hpend hlevel hen2 hpend2 => ?resume⟩
  all_goals
    have hsel : selectSource s = some (.line .l1) :=
      selectSource_eq_some_line.mpr ⟨requestLine_of_latched hen hpend, fun _ => hreset, nofun⟩
    have hreset' : requestLine (service (.line .l1) s) .l0 = false :=
      (requestLine_service_line_ne s (by decide)).trans hreset
    have hpause' : requestLine (service (.line .l1) s) .l1 = false := requestLine_service_line_self hlevel
    have hresume' := requestLine_service_line_ne s (i := .l1) (j := .l2) (by decide)
  case tick =>
    have hquiet : noLineRequest (service (.line .l1) s) := by
      intro j
      cases j with
      | l0 => exact hreset'
      | l1 => exact hpause'
      | l2 => exact hresume'.trans hresume
    refine ⟨service (.line .l1) s, execAll_next_iff.mpr ?_, rfl, rfl, rfl⟩
    rw [effects_cons, effect_disp_of_selected hie hsel, effects_cons,
      effect_disp_of_none (selectSource_eq_none hquiet rfl), effects_nil]
  case resume =>
    have hsel' : selectSource (service (.line .l1) s) = some (.line .l2) :=
      selectSource_eq_some_line.mpr
        ⟨hresume'.trans (requestLine_of_latched hen2 hpend2), nofun, fun _ => ⟨hreset', hpause'⟩⟩
    have hie' : (service (.line .l1) s).ie = true := (service_ie _ s).trans hie
    refine ⟨service (.line .l2) (service (.line .l1) s), execAll_next_iff.mpr ?_, rfl, rfl, rfl⟩
    rw [effects_cons, effect_disp_of_selected hie hsel, effects_cons, effect_disp_of_selected hie' hsel', effects_nil]

/-- Settles O50: the default's clauses of the reset table. -/
theorem resetTakesTheDefaults : Obligations.ResetTakesTheDefaults := by
  obtain ⟨-, hkinds, hlevels⟩ := resetStateIsTheTable
  exact ⟨rfl, hkinds, hlevels⟩

/-- Settles O53. -/
theorem resetMeetsTheInvariants : Obligations.ResetMeetsTheInvariants := blockInv_resetWith

end Sys2Proof.Machine
